-- ==== Sys2Proof/Word.lean ====
section
/-! DEFINITION. The word types of the CPED: bytes, the 32-bit request and response words, the 6-bit length field
(00_scope.md R8, R9, R10; 30_encoding.md R70, R80). All values are unsigned. -/

namespace Sys2Proof

/-- Eight bits: a command byte, a status byte, a payload byte, an operand (00_scope.md R8). -/
abbrev Byte := BitVec 8

/-- A request word REQ or a response word RSP (30_encoding.md R70, R80). -/
abbrev Word := BitVec 32

/-- The six-bit payload length field LEN (30_encoding.md R70, 10_state.md R24). -/
abbrev Len := BitVec 6

end Sys2Proof
end

