-- ==== Sys2Proof/Config.lean ====
section
/-! DEFINITION. What an implementation of the CPED fixes (00_scope.md R7), the record of the input signals
(10_state.md R35, R37, R39; 70_reset_and_hazards.md R220), and the free values: the width of the SIL's error code and
what the environment drives where no scenario says it. -/

namespace Sys2Proof.Config

/-- The payload lanes and frame positions a state can hold: 63, the largest N_MAX that R7 admits. A CPED has N_MAX of them
(`Params.nMax`); the others stand for nothing, hold no value and are read by no step (00_scope.md R7; assumption 18). -/
abbrev lanes : Nat := 63

/-- REG_ADDR_MAX, the largest register address: 0x1D, fixed by the source (00_scope.md R7). -/
abbrev regAddrMax : Nat := 0x1D

/-- FREE VALUE (assumption 1): ERR_W - 1. The spec leaves ERR_W OPEN and asks only ERR_W >= 1 (00_scope.md R7). -/
opaque errWidthPred : Nat

/-- ERR_W, the width of the SIL's error code: any width of at least one bit (00_scope.md R7; assumption 1). -/
abbrev errWidth : Nat := errWidthPred + 1

/-- The entries of the configuration table OPC that may be configured: the seven opcodes whose value the source does
not give (40_command_encoding.md R101). The four the source fixes are not fields: they cannot be configured. -/
structure OpcTable where
  rRxPayload : Byte
  wTxPayload : Byte
  flushTx : Byte
  flushRx : Byte
  reuseTxPl : Byte
  wAckPayload : Byte
  wTxPayloadNoack : Byte
  deriving DecidableEq, Repr

/-- The parameters of 00_scope.md R7, the argument every state carries (assumption 2). REG_ADDR_MAX is fixed by the source and
ERR_W is `errWidth`. -/
structure Params where
  /-- N_MAX, the largest payload length -/
  nMax : Nat
  /-- PIPE_MAX, the largest pipe index -/
  pipeMax : Nat
  /-- OPC -/
  opc : OpcTable
  deriving DecidableEq, Repr

/-- The constraints R7 and R101 put on the parameters (00_scope.md R7; 40_command_encoding.md R101). -/
def Params.admissible (c : Params) : Bool :=
  decide (1 ≤ c.nMax) && decide (c.nMax ≤ lanes) && decide (c.pipeMax ≤ 7) && c.opc.wAckPayload &&& 0x07#8 == 0#8

/-- The value of every input signal of the CPED at one step: the reset input (70_reset_and_hazards.md R220), the
requester's side of the request port (10_state.md R35) and of the response port (R37), the SIL's side of the SIL port
(R39). -/
structure Inputs where
  /-- RST -/
  rst : Bool
  /-- REQ_VALID -/
  reqValid : Bool
  /-- REQ -/
  req : Word
  /-- OUT_DATA[0..N_MAX-1] -/
  outData : Vector Byte lanes
  /-- XREQ_READY -/
  xreqReady : Bool
  /-- XRSP_VALID -/
  xrspValid : Bool
  /-- XRSP_ERR -/
  xrspErr : Bool
  /-- XRSP_CODE -/
  xrspCode : BitVec errWidth
  /-- XRX[0..N_MAX] -/
  xrx : Vector Byte (lanes + 1)
  /-- RSP_READY -/
  rspReady : Bool
  deriving DecidableEq, Repr, Inhabited

/-- Nothing offered, nothing taken, RST low, every data lane 0: the signals after reset (assumption 4). -/
def Inputs.quiet : Inputs where
  rst := false
  reqValid := false
  req := 0
  outData := Vector.replicate lanes 0
  xreqReady := false
  xrspValid := false
  xrspErr := false
  xrspCode := 0
  xrx := Vector.replicate (lanes + 1) 0
  rspReady := false

/-- FREE VALUE (assumption 3): what the requester, the SIL, the chip and the reset line drive, where the scenario held
in the state has ended. 20_memory.md R56: the received bytes, the ok or err outcome and the error code are draws. -/
opaque drive : Nat → Inputs

end Sys2Proof.Config
end

