-- ==== Sys2Proof/Syntax.lean ====
section
/-! DEFINITION. What the requester can ask for: one constructor of `Instr` per row of spec/opcode_table.json, with the
fields the row's operation uses (30_encoding.md R70 to R75; 42_operations.md R160), the eleven opcodes
(40_command_encoding.md R100), the command-byte formats (30_encoding.md R85) and the register names
(40_command_encoding.md R110). -/

namespace Sys2Proof

/-- A request, by its OP field (30_encoding.md R71). Fields the operation ignores are not fields of the constructor
(30_encoding.md R75). `addr`, `pipe` and `cmd` are REQ.OPERAND, `n` is REQ.LEN, `oe` is OUT_EN, `ie` is IN_EN. -/
inductive Instr where
  /-- OP 0x0, read register (42_operations.md R162). -/
  | rRegister (addr : Byte) (n : Len)
  /-- OP 0x1, write register (R163). -/
  | wRegister (addr : Byte) (n : Len)
  /-- OP 0x2, read RX payload (R164). -/
  | rRxPayload (n : Len)
  /-- OP 0x3, write TX payload (R165). -/
  | wTxPayload (n : Len)
  /-- OP 0x4, flush TX FIFO (R166). -/
  | flushTx
  /-- OP 0x5, flush RX FIFO (R167). -/
  | flushRx
  /-- OP 0x6, reuse last TX payload (R168). -/
  | reuseTxPl
  /-- OP 0x7, read RX payload width (R169). -/
  | rRxPlWid
  /-- OP 0x8, write ACK payload for a pipe (R170). -/
  | wAckPayload (pipe : Byte) (n : Len)
  /-- OP 0x9, write TX payload, no ACK (R171). -/
  | wTxPayloadNoack (n : Len)
  /-- OP 0xA, no-operation, status poll (R172). -/
  | nop
  /-- OP 0xB, reserved (R173). -/
  | reservedB
  /-- OP 0xC, reserved (R173). -/
  | reservedC
  /-- OP 0xD, reserved (R173). -/
  | reservedD
  /-- OP 0xE, reserved (R173). -/
  | reservedE
  /-- OP 0xF, TRANSCEIVE, the framer itself (41_transaction_framer.md R130). -/
  | transceive (cmd : Byte) (n : Len) (oe ie : Bool)
  deriving DecidableEq, Repr

/-- The closed set of eleven opcodes (40_command_encoding.md R100). -/
inductive Opcode where
  | rRegister | wRegister | rRxPayload | wTxPayload | flushTx | flushRx | reuseTxPl | rRxPlWid
  | wAckPayload | wTxPayloadNoack | nop
  deriving DecidableEq, Repr

/-- The command-byte formats an opcode can have (30_encoding.md R85): A address, P pipe, F fixed. Format T, the raw
byte, is TRANSCEIVE's and belongs to no opcode. -/
inductive CmdFormat where
  | address | pipe | fixed
  deriving DecidableEq, Repr

/-- The parameters of one frame, the row of 42_operations.md R160: command byte, N, outbound, inbound. -/
structure FrameParams where
  cmd : Byte
  n : Len
  oe : Bool
  ie : Bool
  deriving DecidableEq, Repr

/-- A request as the requester presents it: the word and the outbound payload lanes (10_state.md R35). -/
structure Request where
  req : Word
  outData : Vector Byte Config.lanes
  deriving DecidableEq, Repr

/-- The register names usable as an address in the request syntax (40_command_encoding.md R110). -/
inductive RegName where
  | config | enAa | enRxaddr | setupAw | setupRetr | rfCh | rfSetup | status | observeTx | rpd
  | rxAddrP0 | rxAddrP1 | rxAddrP2 | rxAddrP3 | rxAddrP4 | rxAddrP5 | txAddr
  | rxPwP0 | rxPwP1 | rxPwP2 | rxPwP3 | rxPwP4 | rxPwP5 | fifoStatus | dynpd | feature
  deriving DecidableEq, Repr

/-- A request in the call syntax of 30_encoding.md R89. A list is the listed payload bytes, `n` the written count. -/
inductive Call where
  | rRegister (addr : Byte) (n : Nat)
  | wRegister (addr : Byte) (data : List Byte) (n : Nat)
  | rRxPayload (n : Nat)
  | wTxPayload (data : List Byte) (n : Nat)
  | flushTx
  | flushRx
  | reuseTxPl
  | rRxPlWid
  | wAckPayload (pipe : Byte) (data : List Byte) (n : Nat)
  | wTxPayloadNoack (data : List Byte) (n : Nat)
  | nop
  | transceive (cmd : Byte) (out : Option (List Byte)) (inbound : Bool) (n : Nat)
  deriving DecidableEq, Repr

end Sys2Proof
end

