-- ==== Sys2Proof/WellFormed.lean ====
section
/-! DEFINITION. The caller contract: which requests lie inside it (30_encoding.md R72, R73, R88; 42_operations.md R174).
A request outside it still decodes and still has a meaning: the CPED rejects it with PRECOND (60_exceptions.md R191).
The checks the machine itself makes are in Machine/Operands.lean, written from 60_exceptions.md R192. -/

namespace Sys2Proof

/-- A register address the CPED admits (30_encoding.md R72). -/
def regAddrAdmitted (addr : Byte) : Bool := decide (addr.toNat ≤ Config.regAddrMax)

/-- A pipe index the CPED admits (30_encoding.md R72). -/
def pipeAdmitted (c : Config.Params) (pipe : Byte) : Bool := decide (pipe.toNat ≤ c.pipeMax)

/-- A payload length the CPED admits (30_encoding.md R73). -/
def lengthAdmitted (c : Config.Params) (n : Len) : Bool := decide (n.toNat ≤ c.nMax)

/-- The request meets the caller contract of a CPED with the parameters `c` (30_encoding.md R72, R73; reserved OP values never do, R88). -/
def Instr.wellFormed (c : Config.Params) (i : Instr) : Bool :=
  match i with
  | .rRegister addr n => regAddrAdmitted addr && lengthAdmitted c n
  | .wRegister addr n => regAddrAdmitted addr && lengthAdmitted c n
  | .rRxPayload n => lengthAdmitted c n
  | .wTxPayload n => lengthAdmitted c n
  | .flushTx => true
  | .flushRx => true
  | .reuseTxPl => true
  | .rRxPlWid => true
  | .wAckPayload pipe n => pipeAdmitted c pipe && lengthAdmitted c n
  | .wTxPayloadNoack n => lengthAdmitted c n
  | .nop => true
  | .reservedB => false
  | .reservedC => false
  | .reservedD => false
  | .reservedE => false
  | .transceive _ n _ _ => lengthAdmitted c n

end Sys2Proof
end

