-- ==== Sys2Proof/Decode.lean ====
section
/-! DEFINITION. The decoder of the request word REQ (30_encoding.md R70 to R77), total on every word, and after it the
encoder. The opcode of a command byte is composed in Machine/Operands.lean. -/

namespace Sys2Proof

/-- REQ[3:0], the field OP (30_encoding.md R70). -/
def reqOp (w : Word) : BitVec 4 := w.extractLsb' 0 4

/-- REQ[11:4], the field OPERAND (30_encoding.md R70). -/
def reqOperand (w : Word) : Byte := w.extractLsb' 4 8

/-- REQ[17:12], the field LEN (30_encoding.md R70). -/
def reqLen (w : Word) : Len := w.extractLsb' 12 6

/-- REQ[18], the field OUT_EN (30_encoding.md R70). -/
def reqOutEn (w : Word) : Bool := w.getLsbD 18

/-- REQ[19], the field IN_EN (30_encoding.md R70). -/
def reqInEn (w : Word) : Bool := w.getLsbD 19

/-- The instruction of a request word: the sixteen values of OP, bit 3 first (30_encoding.md R71), each with the
fields its operation uses (R72 to R75). Total, and no value falls through to another (R77). -/
def decodeWord (w : Word) : Instr :=
  match w.getLsbD 3, w.getLsbD 2, w.getLsbD 1, w.getLsbD 0 with
  | false, false, false, false => .rRegister (reqOperand w) (reqLen w)
  | false, false, false, true => .wRegister (reqOperand w) (reqLen w)
  | false, false, true, false => .rRxPayload (reqLen w)
  | false, false, true, true => .wTxPayload (reqLen w)
  | false, true, false, false => .flushTx
  | false, true, false, true => .flushRx
  | false, true, true, false => .reuseTxPl
  | false, true, true, true => .rRxPlWid
  | true, false, false, false => .wAckPayload (reqOperand w) (reqLen w)
  | true, false, false, true => .wTxPayloadNoack (reqLen w)
  | true, false, true, false => .nop
  | true, false, true, true => .reservedB
  | true, true, false, false => .reservedC
  | true, true, false, true => .reservedD
  | true, true, true, false => .reservedE
  | true, true, true, true => .transceive (reqOperand w) (reqLen w) (reqOutEn w) (reqInEn w)

/-- Why a number is no request word. The decoder of a word itself rejects nothing (30_encoding.md R77). -/
inductive DecodeRejection where
  /-- The bits do not fit the stated width. -/
  | bitsBeyondWidth
  /-- The stated width is more than the 32 bits of a request word (30_encoding.md R78). -/
  | notOneRequestWord
  deriving DecidableEq, Repr

/-- Decoding of any number of bits: one request word, or a rejection by name. A width below 32 leaves the bits above it
zero (assumption 15). -/
def decodeBits (nbits w : Nat) : Except DecodeRejection Instr :=
  if 32 < nbits then .error .notOneRequestWord
  else if 2 ^ nbits ≤ w then .error .bitsBeyondWidth
  else .ok (decodeWord (BitVec.ofNat 32 w))

/-- The instruction the decoder reads from a word of spec/opcode_table.json, bits numbered as the table numbers them. -/
def decodeTableWord (nbits w : Nat) : Option Instr :=
  match decodeBits nbits w with
  | .ok i => some i
  | .error _ => none

/-- A request word from its fields: `OP | (OPERAND << 4) | (LEN << 12) | (OUT_EN << 18) | (IN_EN << 19)`
(30_encoding.md R70). Reserved bits are 0. -/
def buildReq (op : BitVec 4) (operand : Byte) (len : Len) (outEn inEn : Bool) : Word :=
  op.setWidth 32 ||| operand.setWidth 32 <<< 4 ||| len.setWidth 32 <<< 12
    ||| (BitVec.ofBool outEn).setWidth 32 <<< 18 ||| (BitVec.ofBool inEn).setWidth 32 <<< 19

/-- The OP value of an instruction (30_encoding.md R71). -/
def Instr.opNumber : Instr → BitVec 4
  | .rRegister _ _ => 0x0
  | .wRegister _ _ => 0x1
  | .rRxPayload _ => 0x2
  | .wTxPayload _ => 0x3
  | .flushTx => 0x4
  | .flushRx => 0x5
  | .reuseTxPl => 0x6
  | .rRxPlWid => 0x7
  | .wAckPayload _ _ => 0x8
  | .wTxPayloadNoack _ => 0x9
  | .nop => 0xA
  | .reservedB => 0xB
  | .reservedC => 0xC
  | .reservedD => 0xD
  | .reservedE => 0xE
  | .transceive _ _ _ _ => 0xF

/-- The request word of an instruction, every ignored field 0 (30_encoding.md R70, R89). -/
def encode (i : Instr) : Word :=
  match i with
  | .rRegister addr n => buildReq i.opNumber addr n false false
  | .wRegister addr n => buildReq i.opNumber addr n false false
  | .rRxPayload n => buildReq i.opNumber 0 n false false
  | .wTxPayload n => buildReq i.opNumber 0 n false false
  | .flushTx => buildReq i.opNumber 0 0 false false
  | .flushRx => buildReq i.opNumber 0 0 false false
  | .reuseTxPl => buildReq i.opNumber 0 0 false false
  | .rRxPlWid => buildReq i.opNumber 0 0 false false
  | .wAckPayload pipe n => buildReq i.opNumber pipe n false false
  | .wTxPayloadNoack n => buildReq i.opNumber 0 n false false
  | .nop => buildReq i.opNumber 0 0 false false
  | .reservedB => buildReq i.opNumber 0 0 false false
  | .reservedC => buildReq i.opNumber 0 0 false false
  | .reservedD => buildReq i.opNumber 0 0 false false
  | .reservedE => buildReq i.opNumber 0 0 false false
  | .transceive cmd n oe ie => buildReq i.opNumber cmd n oe ie

/-- The bits of REQ that an operation with this OP value reads (30_encoding.md R70 to R75): every other bit is ignored. -/
def usedBits (op : BitVec 4) : Word :=
  match op.toNat with
  | 0x0 | 0x1 | 0x8 => 0x0003FFFF
  | 0x2 | 0x3 | 0x9 => 0x0003F00F
  | 0xF => 0x000FFFFF
  | _ => 0x0000000F

end Sys2Proof
end

