-- ==== Sys2Proof/Machine/Parameters.lean ====
section
/-! DEFINITION. The parameters of this spec's hardware: the default column of 00_scope.md R7. A state carries its parameters
as a field, and the meanings take them from there; these values are State.reset's. -/

namespace Sys2Proof.Machine

/-- The default entries of OPC the source does not give: the nRF24L01+ command set's values
(40_command_encoding.md R101; assumption 5). -/
def opcDefault : Config.OpcTable where
  rRxPayload := 0x61
  wTxPayload := 0xA0
  flushTx := 0xE1
  flushRx := 0xE2
  reuseTxPl := 0xE3
  wAckPayload := 0xA8
  wTxPayloadNoack := 0xB0

/-- The default column of R7: N_MAX = 32, PIPE_MAX = 5, the default table OPC (00_scope.md R7; assumption 2). -/
def params : Config.Params where
  nMax := 32
  pipeMax := 5
  opc := opcDefault

end Sys2Proof.Machine
end

