-- ==== Sys2Proof/Machine/State.lean ====
section
/-! DEFINITION. The state of the CPED (10_state.md R22 to R31), the signals its environment drives, and the observation
of a run (00_scope.md R19); the reasons a step can stop; the state after reset. -/

namespace Sys2Proof.Machine

/-- The control register `state` (10_state.md R22). -/
inductive Ctrl where
  /-- 0b00: no request in progress. -/
  | idle
  /-- 0b01: a frame is offered to the SIL. -/
  | issue
  /-- 0b10: the SIL has the frame. -/
  | wait
  /-- 0b11: a response is offered to the requester. -/
  | resp
  deriving DecidableEq, Repr

/-- R_KIND (10_state.md R28, 30_encoding.md R80). The fourth value 0b11 is never produced, and no value of this type
stands for it (93_implementation_defined.md U12;
assumption 10). -/
inductive Kind where
  | ok | busErr | precond
  deriving DecidableEq, Repr

/-- The cause of a precondition failure (60_exceptions.md R192, R194). -/
inductive Cause where
  | reservedOp | operandRange | lengthRange
  deriving DecidableEq, Repr

/-- The response latch, written as one by COMPLETE or by a rejected ACCEPT (10_state.md R28). -/
structure ResponseLatch where
  /-- R_KIND -/
  kind : Kind
  /-- R_STATUS -/
  status : Byte
  /-- R_PERR: the cause, none for 0b00 -/
  perr : Option Cause
  /-- R_IN_VALID -/
  inValid : Bool
  /-- R_IN_LEN -/
  inLen : Len
  /-- R_IN[0..N_MAX-1] -/
  inBytes : Vector Byte Config.lanes
  /-- R_ERR_CODE -/
  errCode : BitVec Config.errWidth
  deriving DecidableEq, Repr

/-- What the requester takes in DELIVER: the signals RSP, IN_DATA and ERR_CODE (10_state.md R37). -/
structure Response where
  rsp : Word
  inData : Vector Byte Config.lanes
  errCode : BitVec Config.errWidth
  deriving DecidableEq, Repr

/-- The result the SIL returns for one exchange (20_memory.md R50). XRX carries one byte per position of the largest
frame; the CPED reads positions 0..LEN of an `ok` result, so a result has exactly the frame's length
(assumption 11). -/
inductive SilResult where
  | ok (xrx : Vector Byte (Config.lanes + 1))
  | err (code : BitVec Config.errWidth)
  deriving DecidableEq, Repr

/-- The latches a step can read (10_state.md R31). -/
inductive Latch where
  | len | inEn | txbuf | rxbuf | response
  deriving DecidableEq, Repr

/-- Why the machine stops with a fault. -/
inductive Fault where
  /-- HANDOFF, COMPLETE or DELIVER read a latch that holds no value (10_state.md R27: "A model that finds itself reading
  one has a bug and must fault"). Safe: the machine stops, and no state a run reaches raises it. -/
  | latchNoValue (latch : Latch)
  /-- HANDOFF or COMPLETE read a LEN above N_MAX, so that the frame has no positions in the buffers. 10_state.md R31:
  "values above N_MAX are never written" (assumption 17). Safe: the machine stops, and no state a run reaches raises it. -/
  | lenAboveNMax
  deriving DecidableEq, Repr

/-- Why the machine has no meaning for an instruction. -/
inductive Refusal where
  /-- An arm of `exec` without a meaning. No arm answers it. Safe: the machine stops. -/
  | notModelled (mnemonic : String)
  deriving DecidableEq, Repr

/-- The state. A latch of type `Option` is the spec's own: `none` is "holds no value" (10_state.md R27, 00_scope.md
R12; assumption 8). -/
structure State where
  /-- The parameters the CPED is built with (00_scope.md R7). No register: no step changes them. -/
  cfg : Config.Params
  /-- `state` -/
  ctrl : Ctrl
  /-- CMD -/
  cmd : Option Byte
  /-- LEN -/
  len : Option Len
  /-- IN_EN -/
  inEn : Option Bool
  /-- TXBUF[0..N_MAX] -/
  txbuf : Vector (Option Byte) (Config.lanes + 1)
  /-- RXBUF[0..N_MAX] -/
  rxbuf : Vector (Option Byte) (Config.lanes + 1)
  /-- R_KIND, R_STATUS, R_PERR, R_IN_VALID, R_IN_LEN, R_IN, R_ERR_CODE -/
  rsp : Option ResponseLatch
  /-- The input signals at this step (10_state.md R35, R37, R39; 70_reset_and_hazards.md R220). -/
  port : Config.Inputs
  /-- The scenario: what the environment drives at the next steps, in order (assumption 3). Not a CPED register. -/
  env : List Config.Inputs
  /-- How many free drives have been taken after the scenario ended (assumption 3). Not a CPED register. -/
  draws : Nat
  /-- The frames the SIL has taken, in order (00_scope.md R19). Not a CPED register. -/
  sent : List (List Byte)
  /-- The responses the requester has taken, in order (00_scope.md R19). Not a CPED register. -/
  taken : List Response
  deriving DecidableEq, Repr

/-- A buffer of which no byte holds a value (10_state.md R27). -/
def noBytes : Vector (Option Byte) (Config.lanes + 1) := Vector.replicate (Config.lanes + 1) none

/-- The machine right after reset: IDLE, every latch without a value (70_reset_and_hazards.md R220, R221). The input
signals are quiet, and the scenario and the observation empty (assumption 4); the parameters are the defaults of R7. -/
def State.reset : State where
  cfg := params
  ctrl := .idle
  cmd := none
  len := none
  inEn := none
  txbuf := noBytes
  rxbuf := noBytes
  rsp := none
  port := Config.Inputs.quiet
  env := []
  draws := 0
  sent := []
  taken := []

end Sys2Proof.Machine
end

