-- ==== Sys2Proof/Machine/Operands.lean ====
section
/-! DEFINITION. The operands of a request: the table OPC and the composition of the command byte
(40_command_encoding.md R100 to R111; 30_encoding.md R85 to R87), the filler byte, the outbound payload lanes
(30_encoding.md R76), and the checks of ACCEPT in their order (60_exceptions.md R192, R193). -/

namespace Sys2Proof.Machine

/-- OPC(op) in a configured table; four entries are fixed by the source (40_command_encoding.md R101). -/
def opcOf (t : Config.OpcTable) : Opcode → Byte
  | .rRegister => 0x00
  | .wRegister => 0x20
  | .rRxPayload => t.rRxPayload
  | .wTxPayload => t.wTxPayload
  | .flushTx => t.flushTx
  | .flushRx => t.flushRx
  | .reuseTxPl => t.reuseTxPl
  | .rRxPlWid => 0x60
  | .wAckPayload => t.wAckPayload
  | .wTxPayloadNoack => t.wTxPayloadNoack
  | .nop => 0xFF

/-- FILL, the filler byte (40_command_encoding.md R103). -/
def fill : Byte := 0xFF

/-- The format column of 30_encoding.md R86. -/
def formatOf : Opcode → CmdFormat
  | .rRegister => .address
  | .wRegister => .address
  | .wAckPayload => .pipe
  | .rRxPayload => .fixed
  | .wTxPayload => .fixed
  | .flushTx => .fixed
  | .flushRx => .fixed
  | .reuseTxPl => .fixed
  | .rRxPlWid => .fixed
  | .wTxPayloadNoack => .fixed
  | .nop => .fixed

/-- Compose(op, operand) over a configured table (40_command_encoding.md R105). -/
def compose (t : Config.OpcTable) (op : Opcode) (operand : Byte) : Byte :=
  match formatOf op with
  | .address => opcOf t op ||| (operand.extractLsb' 0 5).setWidth 8
  | .pipe => opcOf t op ||| (operand.extractLsb' 0 3).setWidth 8
  | .fixed => opcOf t op

/-- The register address check of 60_exceptions.md R192. -/
def checkRegAddr (addr : Byte) : Option Cause :=
  if Config.regAddrMax < addr.toNat then some .operandRange else none

/-- The pipe index check of 60_exceptions.md R192. -/
def checkPipe (c : Config.Params) (pipe : Byte) : Option Cause :=
  if c.pipeMax < pipe.toNat then some .operandRange else none

/-- The length check of 60_exceptions.md R192. -/
def checkLen (c : Config.Params) (n : Len) : Option Cause :=
  if c.nMax < n.toNat then some .lengthRange else none

/-- The first failure of a list of checks gives the cause (60_exceptions.md R192, R193). -/
def firstFailure : List (Option Cause) → Option Cause
  | [] => none
  | some c :: _ => some c
  | none :: rest => firstFailure rest

/-- The byte of frame position `i + 1`: lane `i` of OUT_DATA, or FILL (41_transaction_framer.md R131;
20_memory.md R53). -/
def payloadByte (outData : Vector Byte Config.lanes) (oe : Bool) (i : Fin Config.lanes) : Byte :=
  if oe then outData[i] else fill

/-- The address of a register name (40_command_encoding.md R110; all but CONFIG are assumption 6). -/
def regNameAddress : RegName → Byte
  | .config => 0x00
  | .enAa => 0x01
  | .enRxaddr => 0x02
  | .setupAw => 0x03
  | .setupRetr => 0x04
  | .rfCh => 0x05
  | .rfSetup => 0x06
  | .status => 0x07
  | .observeTx => 0x08
  | .rpd => 0x09
  | .rxAddrP0 => 0x0A
  | .rxAddrP1 => 0x0B
  | .rxAddrP2 => 0x0C
  | .rxAddrP3 => 0x0D
  | .rxAddrP4 => 0x0E
  | .rxAddrP5 => 0x0F
  | .txAddr => 0x10
  | .rxPwP0 => 0x11
  | .rxPwP1 => 0x12
  | .rxPwP2 => 0x13
  | .rxPwP3 => 0x14
  | .rxPwP4 => 0x15
  | .rxPwP5 => 0x16
  | .fifoStatus => 0x17
  | .dynpd => 0x1C
  | .feature => 0x1D

end Sys2Proof.Machine
end

