-- ==== Sys2Proof/Machine/Flags.lean ====
section
/-! DEFINITION. The CPED has no condition codes (10_state.md R30). The only status it produces is the outcome of a
request: the fields of the response latch (10_state.md R28; 60_exceptions.md R191, R194, R195) and the response word
they make (30_encoding.md R80). -/

namespace Sys2Proof.Machine

/-- The code of R_KIND (30_encoding.md R80). -/
def kindBits : Kind → BitVec 2
  | .ok => 0b00
  | .busErr => 0b01
  | .precond => 0b10

/-- The code of R_PERR (30_encoding.md R80; 60_exceptions.md R194). -/
def causeBits : Option Cause → BitVec 2
  | none => 0b00
  | some .reservedOp => 0b01
  | some .operandRange => 0b10
  | some .lengthRange => 0b11

/-- The code of `state` (10_state.md R22). -/
def ctrlBits : Ctrl → BitVec 2
  | .idle => 0b00
  | .issue => 0b01
  | .wait => 0b10
  | .resp => 0b11

/-- Every lane 0x00. -/
def noInBytes : Vector Byte Config.lanes := Vector.replicate Config.lanes 0x00

/-- The response word RSP: reserved [31:19], IN_LEN [18:13], IN_VALID [12], PERR [11:10], KIND [9:8], STATUS [7:0]
(30_encoding.md R80). -/
def rspWord (r : ResponseLatch) : Word :=
  0#13 ++ r.inLen ++ BitVec.ofBool r.inValid ++ causeBits r.perr ++ kindBits r.kind ++ r.status

/-- The record on the response port (10_state.md R37). -/
def responseOf (r : ResponseLatch) : Response where
  rsp := rspWord r
  inData := r.inBytes
  errCode := r.errCode

/-- The response latch of PrecondFail(cause) (60_exceptions.md R191). -/
def precondLatch (c : Cause) : ResponseLatch where
  kind := .precond
  perr := some c
  status := 0x00
  inValid := false
  inLen := 0
  inBytes := noInBytes
  errCode := 0

/-- The response latch of BusError(code) (60_exceptions.md R195). -/
def busErrLatch (code : BitVec Config.errWidth) : ResponseLatch where
  kind := .busErr
  errCode := code
  status := 0x00
  perr := none
  inValid := false
  inLen := 0
  inBytes := noInBytes

/-- The response latch of COMPLETE with `ok`, from received byte 0, the received bytes after it, LEN and IN_EN
(41_transaction_framer.md R136 to R139). -/
def okLatch (status : Byte) (received : List Byte) (n : Len) (ie : Bool) : ResponseLatch where
  kind := .ok
  status := status
  perr := none
  errCode := 0
  inValid := ie
  inLen := if ie then n else 0
  inBytes := if ie then Vector.ofFn fun i : Fin Config.lanes => if i.val < n.toNat then received.getD i.val 0x00 else 0x00
    else noInBytes

end Sys2Proof.Machine
end

