-- ==== Sys2Proof/Machine/Ops.lean ====
section
/-! DEFINITION. The operations the meanings share: the output signals (10_state.md R36 to R40), the frame buffers
(10_state.md R25, R26), building a frame (41_transaction_framer.md R131, R132), the two failures (60_exceptions.md R191,
R195), which stand here for taking an exception (60_exceptions.md R201), the clearing of the latches, which is the return
from one (60_exceptions.md R202; 10_state.md R29), and ACCEPT itself. -/

namespace Sys2Proof.Machine

/-- What one step of the CPED answers. -/
abbrev Result := Host.Outcome State Fault Refusal

/-- Do the rest with the next state of a step that has one. -/
def onNext (o : Result) (f : State → Result) : Result :=
  match o with
  | .next s => f s
  | .fault r => .fault r
  | .refused r => .refused r

/-- Read a latch: a latch that holds no value faults and never supplies one (10_state.md R27). -/
def withValue {α : Type} (latch : Latch) (v : Option α) (f : α → Result) : Result :=
  match v with
  | some a => f a
  | none => .fault (.latchNoValue latch)

/-- REQ_READY (10_state.md R36). -/
def State.reqReady (s : State) : Bool := s.ctrl == .idle

/-- RSP_VALID (10_state.md R38). -/
def State.rspValid (s : State) : Bool := s.ctrl == .resp

/-- XREQ_VALID (10_state.md R39). -/
def State.xreqValid (s : State) : Bool := s.ctrl == .issue

/-- XLEN, LEN + 1 on seven bits (10_state.md R39); no value while LEN holds none. -/
def State.xlen (s : State) : Option (BitVec 7) := s.len.map fun n => n.setWidth 7 + 1

/-- RSP, IN_DATA and ERR_CODE, from the response latch (10_state.md R37, R38); no value while it holds none
(assumption 16). -/
def State.response (s : State) : Option Response := s.rsp.map responseOf

/-- The values of a list of bytes that each hold one, or `none` if one of them holds no value (10_state.md R27). -/
def allValues : List (Option Byte) → Option (List Byte)
  | [] => some []
  | none :: _ => none
  | some b :: rest => (allValues rest).map (b :: ·)

/-- The bytes at positions 0..n of a buffer, or `none` if one of them holds no value (10_state.md R27). -/
def readBytes (buf : Vector (Option Byte) (Config.lanes + 1)) (n : Nat) : Option (List Byte) :=
  allValues (buf.toList.take (n + 1))

/-- TXBUF[0..LEN], the frame bytes of XTX: the only positions offered to the SIL (10_state.md R39, R40). -/
def State.xtx (s : State) : Option (List Byte) :=
  match s.len with
  | some n => readBytes s.txbuf n.toNat
  | none => none

/-- TXBUF with a frame in positions 0..n: the command byte, then the payload (41_transaction_framer.md R131). The
positions above n are not written. -/
def loadTx (buf : Vector (Option Byte) (Config.lanes + 1)) (outData : Vector Byte Config.lanes) (p : FrameParams) :
    Vector (Option Byte) (Config.lanes + 1) :=
  Vector.ofFn fun i : Fin (Config.lanes + 1) =>
    if h : i.val = 0 then some p.cmd
    else if i.val ≤ p.n.toNat then some (payloadByte outData p.oe ⟨i.val - 1, by omega⟩)
    else buf[i]

/-- RXBUF with the received bytes in positions 0..n (41_transaction_framer.md R136). The positions above n are not
written. -/
def loadRx (buf : Vector (Option Byte) (Config.lanes + 1)) (xrx : Vector Byte (Config.lanes + 1)) (n : Len) :
    Vector (Option Byte) (Config.lanes + 1) :=
  Vector.ofFn fun i : Fin (Config.lanes + 1) => if i.val ≤ n.toNat then some xrx[i] else buf[i]

/-- The accepting half of ACCEPT: the frame is built, whole, in one step (41_transaction_framer.md R131, R132). -/
def State.buildFrame (p : FrameParams) (s : State) : State :=
  { s with
    txbuf := loadTx s.txbuf s.port.outData p
    cmd := some p.cmd
    len := some p.n
    inEn := some p.ie
    ctrl := .issue }

/-- PrecondFail(cause): the request is rejected, with no frame and no exchange (60_exceptions.md R191, R201). -/
def State.precondFail (c : Cause) (s : State) : State :=
  { s with rsp := some (precondLatch c), ctrl := .resp }

/-- BusError(code): the SIL's failure is passed through (60_exceptions.md R195, R201). RXBUF is not written. -/
def State.busError (code : BitVec Config.errWidth) (s : State) : State :=
  { s with rsp := some (busErrLatch code), ctrl := .resp }

/-- IDLE with every latch without a value: what DELIVER and RESET leave (41_transaction_framer.md R140;
70_reset_and_hazards.md R220; 10_state.md R29). -/
def State.toIdle (s : State) : State :=
  { s with
    cmd := none
    len := none
    inEn := none
    txbuf := noBytes
    rxbuf := noBytes
    rsp := none
    ctrl := .idle }

/-- ACCEPT can take place: RST is low and the CPED is in IDLE (10_state.md R36; 70_reset_and_hazards.md R220). -/
def State.acceptReady (s : State) : Bool := !s.port.rst && s.reqReady

/-- ACCEPT of a request, given the checks its operation makes, in order, and the frame it asks for
(41_transaction_framer.md R131; 60_exceptions.md R192). Where ACCEPT cannot take place the request waits: nothing of the
CPED changes (10_state.md R36). -/
def accept (checks : List (Option Cause)) (p : FrameParams) (s : State) : Result :=
  if s.acceptReady then
    match firstFailure checks with
    | some c => .next (s.precondFail c)
    | none => .next (s.buildFrame p)
  else .next s

/-- ACCEPT of a request whose OP value is reserved: no field is read (42_operations.md R173). -/
def acceptReserved (s : State) : Result :=
  if s.acceptReady then .next (s.precondFail .reservedOp) else .next s

end Sys2Proof.Machine
end

