-- ==== Sys2Proof/Machine/FifoControl.lean ====
section
/-! DEFINITION. FIFO control, payload width and status poll: FLUSH_TX, FLUSH_RX, REUSE_TX_PL, R_RX_PL_WID and NOP
(42_operations.md R160, R166 to R169, R172). No field of these requests is checked. -/

namespace Sys2Proof.Machine

/-- FLUSH_TX: a one-byte frame (42_operations.md R166). -/
def execFlushTx (s : State) : Result :=
  accept [] { cmd := compose s.cfg.opc .flushTx 0, n := 0, oe := false, ie := false } s

/-- FLUSH_RX: a one-byte frame (42_operations.md R167). -/
def execFlushRx (s : State) : Result :=
  accept [] { cmd := compose s.cfg.opc .flushRx 0, n := 0, oe := false, ie := false } s

/-- REUSE_TX_PL: a one-byte frame (42_operations.md R168). -/
def execReuseTxPl (s : State) : Result :=
  accept [] { cmd := compose s.cfg.opc .reuseTxPl 0, n := 0, oe := false, ie := false } s

/-- R_RX_PL_WID: one filler byte whatever LEN holds, inbound payload (42_operations.md R169). -/
def execRRxPlWid (s : State) : Result :=
  accept [] { cmd := compose s.cfg.opc .rRxPlWid 0, n := 1, oe := false, ie := true } s

/-- NOP, the status poll: a one-byte frame (42_operations.md R172; 60_exceptions.md R205). -/
def execNop (s : State) : Result :=
  accept [] { cmd := compose s.cfg.opc .nop 0, n := 0, oe := false, ie := false } s

end Sys2Proof.Machine
end

