-- ==== Sys2Proof/Machine/PayloadAccess.lean ====
section
/-! DEFINITION. Payload access: R_RX_PAYLOAD, W_TX_PAYLOAD, W_ACK_PAYLOAD and W_TX_PAYLOAD_NOACK (42_operations.md R160,
R164, R165, R170, R171). -/

namespace Sys2Proof.Machine

/-- R_RX_PAYLOAD: `n` filler bytes, inbound payload (42_operations.md R164). -/
def execRRxPayload (n : Len) (s : State) : Result :=
  accept [checkLen s.cfg n] { cmd := compose s.cfg.opc .rRxPayload 0, n := n, oe := false, ie := true } s

/-- W_TX_PAYLOAD: `n` bytes of OUT_DATA, no inbound payload (42_operations.md R165). -/
def execWTxPayload (n : Len) (s : State) : Result :=
  accept [checkLen s.cfg n] { cmd := compose s.cfg.opc .wTxPayload 0, n := n, oe := true, ie := false } s

/-- W_ACK_PAYLOAD: command byte `OPC | pipe`, `n` bytes of OUT_DATA, no inbound payload (42_operations.md R170). -/
def execWAckPayload (pipe : Byte) (n : Len) (s : State) : Result :=
  accept [checkPipe s.cfg pipe, checkLen s.cfg n]
    { cmd := compose s.cfg.opc .wAckPayload pipe, n := n, oe := true, ie := false } s

/-- W_TX_PAYLOAD_NOACK: `n` bytes of OUT_DATA, no inbound payload (42_operations.md R171). -/
def execWTxPayloadNoack (n : Len) (s : State) : Result :=
  accept [checkLen s.cfg n] { cmd := compose s.cfg.opc .wTxPayloadNoack 0, n := n, oe := true, ie := false } s

end Sys2Proof.Machine
end

