-- ==== Sys2Proof/Machine/RawAndReserved.lean ====
section
/-! DEFINITION. TRANSCEIVE, the framer reached directly (41_transaction_framer.md R130), and the four reserved OP values
(42_operations.md R173). -/

namespace Sys2Proof.Machine

/-- TRANSCEIVE: the requester's command byte, unchecked, and its own payload choices (41_transaction_framer.md R130;
40_command_encoding.md R107). -/
def execTransceive (cmd : Byte) (n : Len) (oe ie : Bool) (s : State) : Result :=
  accept [checkLen s.cfg n] { cmd := cmd, n := n, oe := oe, ie := ie } s

/-- OP 0xB: PRECOND, RESERVED_OP (42_operations.md R173). -/
def execReservedB (s : State) : Result := acceptReserved s

/-- OP 0xC: PRECOND, RESERVED_OP (42_operations.md R173). -/
def execReservedC (s : State) : Result := acceptReserved s

/-- OP 0xD: PRECOND, RESERVED_OP (42_operations.md R173). -/
def execReservedD (s : State) : Result := acceptReserved s

/-- OP 0xE: PRECOND, RESERVED_OP (42_operations.md R173). -/
def execReservedE (s : State) : Result := acceptReserved s

end Sys2Proof.Machine
end

