-- ==== Sys2Proof/Machine/RegisterAccess.lean ====
section
/-! DEFINITION. Register access: R_REGISTER and W_REGISTER (42_operations.md R160, R162, R163). -/

namespace Sys2Proof.Machine

/-- R_REGISTER: command byte `OPC | addr`, `n` filler bytes, inbound payload (42_operations.md R162). -/
def execRRegister (addr : Byte) (n : Len) (s : State) : Result :=
  accept [checkRegAddr addr, checkLen s.cfg n]
    { cmd := compose s.cfg.opc .rRegister addr, n := n, oe := false, ie := true } s

/-- W_REGISTER: command byte `OPC | addr`, `n` bytes of OUT_DATA, no inbound payload (42_operations.md R163). -/
def execWRegister (addr : Byte) (n : Len) (s : State) : Result :=
  accept [checkRegAddr addr, checkLen s.cfg n]
    { cmd := compose s.cfg.opc .wRegister addr, n := n, oe := true, ie := false } s

end Sys2Proof.Machine
end

