-- ==== Sys2Proof/Machine/Dispatch.lean ====
section
/-! DEFINITION. One arm per instruction: the meaning of a request is its ACCEPT (10_state.md R23; assumption 9). -/

namespace Sys2Proof.Machine

def exec (i : Instr) (s : State) : Host.Outcome State Fault Refusal :=
  match i with
  | .rRegister addr n => Sys2Proof.Machine.execRRegister addr n s
  | .wRegister addr n => Sys2Proof.Machine.execWRegister addr n s
  | .rRxPayload n => Sys2Proof.Machine.execRRxPayload n s
  | .wTxPayload n => Sys2Proof.Machine.execWTxPayload n s
  | .flushTx => Sys2Proof.Machine.execFlushTx s
  | .flushRx => Sys2Proof.Machine.execFlushRx s
  | .reuseTxPl => Sys2Proof.Machine.execReuseTxPl s
  | .rRxPlWid => Sys2Proof.Machine.execRRxPlWid s
  | .wAckPayload pipe n => Sys2Proof.Machine.execWAckPayload pipe n s
  | .wTxPayloadNoack n => Sys2Proof.Machine.execWTxPayloadNoack n s
  | .nop => Sys2Proof.Machine.execNop s
  | .reservedB => Sys2Proof.Machine.execReservedB s
  | .reservedC => Sys2Proof.Machine.execReservedC s
  | .reservedD => Sys2Proof.Machine.execReservedD s
  | .reservedE => Sys2Proof.Machine.execReservedE s
  | .transceive cmd n oe ie => Sys2Proof.Machine.execTransceive cmd n oe ie s

end Sys2Proof.Machine
end

