-- ==== Sys2Proof/Machine/Framer.lean ====
section
/-! DEFINITION. The steps of a transaction after ACCEPT, HANDOFF, COMPLETE and DELIVER (41_transaction_framer.md R135 to
R140), RESET (70_reset_and_hazards.md R220), and what the environment drives next (10_state.md R45;
70_reset_and_hazards.md R232). -/

namespace Sys2Proof.Machine

/-- HANDOFF: the SIL takes TXBUF[0..LEN] (41_transaction_framer.md R135). -/
def handoff (s : State) : Result :=
  withValue .len s.len fun n =>
    if s.cfg.nMax < n.toNat then .fault .lenAboveNMax
    else withValue .txbuf (readBytes s.txbuf n.toNat) fun frame =>
      .next { s with sent := s.sent ++ [frame], ctrl := .wait }

/-- COMPLETE with `ok(rx)`: RXBUF takes positions 0..LEN, and the response latch is written from RXBUF
(41_transaction_framer.md R136 to R139). -/
def completeOk (xrx : Vector Byte (Config.lanes + 1)) (s : State) : Result :=
  withValue .len s.len fun n =>
    if s.cfg.nMax < n.toNat then .fault .lenAboveNMax
    else withValue .inEn s.inEn fun ie =>
      let rxbuf := loadRx s.rxbuf xrx n
      match readBytes rxbuf n.toNat with
      | some (status :: received) =>
        .next { s with rxbuf := rxbuf, rsp := some (okLatch status received n ie), ctrl := .resp }
      | _ => .fault (.latchNoValue .rxbuf)

/-- COMPLETE: the SIL's result, `ok` or `err`, once (41_transaction_framer.md R136, R144;
assumptions 12 and 13). -/
def complete (r : SilResult) (s : State) : Result :=
  match r with
  | .ok xrx => completeOk xrx s
  | .err code => .next (s.busError code)

/-- The result on the SIL port: XRSP_CODE when XRSP_ERR = 1, else XRX (10_state.md R39). -/
def silResult (p : Config.Inputs) : SilResult := if p.xrspErr then .err p.xrspCode else .ok p.xrx

/-- DELIVER: the requester takes the response, and every latch holds no value again (41_transaction_framer.md R140). -/
def deliver (s : State) : Result :=
  withValue .response s.rsp fun r => .next { s.toIdle with taken := s.taken ++ [responseOf r] }

/-- RESET: IDLE, every latch without a value; what the SIL took stays taken (70_reset_and_hazards.md R220 to R224). -/
def resetStep (s : State) : State := s.toIdle

/-- What the environment drives after this step: the scenario's next entry, or a free drive once it has ended
(assumption 3). -/
def State.nextDrive (s : State) : Config.Inputs :=
  match s.env with
  | d :: _ => d
  | [] => Config.drive s.draws

/-- Handshake stability: a request offered and not passed stays on the port, unless RST breaks it (10_state.md R45;
70_reset_and_hazards.md R220, R232). -/
def holdRequest (now next : Config.Inputs) (passed : Bool) : Config.Inputs :=
  if now.reqValid && !passed && !now.rst && !next.rst then
    { next with reqValid := true, req := now.req, outData := now.outData }
  else next

/-- The input signals move on to the next step; `passed` says that the offered request was accepted. -/
def State.advance (passed : Bool) (s : State) : State :=
  { s with
    port := holdRequest s.port s.nextDrive passed
    env := s.env.tail
    draws := if s.env.isEmpty then s.draws + 1 else s.draws }

end Sys2Proof.Machine
end

