-- ==== Sys2Proof/Machine/Step.lean ====
section
/-! DEFINITION. One step: the CPED reacts to its input signals as its control state says (10_state.md R23), then the
environment drives the next ones. Where no transition is enabled the CPED keeps every register (60_exceptions.md R199). -/

namespace Sys2Proof.Machine

/-- One step. RESET takes precedence over every other step (70_reset_and_hazards.md R220). -/
def step (s : State) : Host.Outcome State Fault Refusal :=
  if s.port.rst then .next ((resetStep s).advance false)
  else
    match s.ctrl with
    | .idle =>
      if s.port.reqValid then onNext (exec (decodeWord s.port.req) s) fun t => .next (t.advance true)
      else .next (s.advance false)
    | .issue =>
      if s.port.xreqReady then onNext (handoff s) fun t => .next (t.advance false)
      else .next (s.advance false)
    | .wait =>
      if s.port.xrspValid then onNext (complete (silResult s.port) s) fun t => .next (t.advance false)
      else .next (s.advance false)
    | .resp =>
      if s.port.rspReady then onNext (deliver s) fun t => .next (t.advance false)
      else .next (s.advance false)

/-- The state with the word `w` of `nbits` bits offered on the request port, so that the next step accepts it: RST low,
REQ_VALID high, and the CPED in IDLE (10_state.md R21, R36; assumption 7). -/
def State.withFetchWord (s : State) (nbits w : Nat) : State :=
  let idle := match s.ctrl with
    | .idle => s
    | .issue => s.toIdle
    | .wait => s.toIdle
    | .resp => s.toIdle
  { idle with port := { idle.port with rst := false, reqValid := true, req := BitVec.ofNat 32 (w % 2 ^ nbits) } }

end Sys2Proof.Machine
end

