-- ==== Sys2Proof/Machine/Requester.lean ====
section
/-! DEFINITION. The request syntax (30_encoding.md R89): the request a call spells, and the reader of a call's text,
with the register names of 40_command_encoding.md R110. It stands on the requester's side: the CPED sees numbers only
(40_command_encoding.md R109). What R89 leaves open of the text (spaces, number forms, idle lanes) is assumption 14. -/

namespace Sys2Proof.Machine

/-- The instruction a call asks for; the count goes into LEN (30_encoding.md R89). -/
def callInstr : Call → Instr
  | .rRegister addr n => .rRegister addr (BitVec.ofNat 6 n)
  | .wRegister addr _ n => .wRegister addr (BitVec.ofNat 6 n)
  | .rRxPayload n => .rRxPayload (BitVec.ofNat 6 n)
  | .wTxPayload _ n => .wTxPayload (BitVec.ofNat 6 n)
  | .flushTx => .flushTx
  | .flushRx => .flushRx
  | .reuseTxPl => .reuseTxPl
  | .rRxPlWid => .rRxPlWid
  | .wAckPayload pipe _ n => .wAckPayload pipe (BitVec.ofNat 6 n)
  | .wTxPayloadNoack _ n => .wTxPayloadNoack (BitVec.ofNat 6 n)
  | .nop => .nop
  | .transceive cmd out inbound n => .transceive cmd (BitVec.ofNat 6 n) out.isSome inbound

/-- The written count of a call. -/
def callCount : Call → Nat
  | .rRegister _ n => n
  | .wRegister _ _ n => n
  | .rRxPayload n => n
  | .wTxPayload _ n => n
  | .flushTx => 0
  | .flushRx => 0
  | .reuseTxPl => 0
  | .rRxPlWid => 0
  | .wAckPayload _ _ n => n
  | .wTxPayloadNoack _ n => n
  | .nop => 0
  | .transceive _ _ _ n => n

/-- The listed payload bytes of a call, where it lists any. -/
def callData : Call → Option (List Byte)
  | .rRegister _ _ => none
  | .wRegister _ data _ => some data
  | .rRxPayload _ => none
  | .wTxPayload data _ => some data
  | .flushTx => none
  | .flushRx => none
  | .reuseTxPl => none
  | .rRxPlWid => none
  | .wAckPayload _ data _ => some data
  | .wTxPayloadNoack data _ => some data
  | .nop => none
  | .transceive _ out _ _ => out

/-- The OUT_DATA lanes of listed bytes; the lanes above them are ignored (30_encoding.md R76) and driven 0. -/
def lanesOf (data : List Byte) : Vector Byte Config.lanes := Vector.ofFn fun i : Fin Config.lanes => data.getD i.val 0

/-- The request a call spells. A count that LEN cannot hold, or that is not the number of listed bytes, spells no
request (30_encoding.md R89). -/
def assemble (c : Call) : Option Request :=
  let data := (callData c).getD []
  if callCount c < 64 ∧ ((callData c).isSome → data.length = callCount c) then
    some { req := encode (callInstr c), outData := lanesOf data }
  else none

/-- The spelling of the register names (40_command_encoding.md R110; CD is the nRF24L01's name of RPD). -/
def regNameOf (word : String) : Option RegName :=
  [("CONFIG", RegName.config), ("EN_AA", .enAa), ("EN_RXADDR", .enRxaddr), ("SETUP_AW", .setupAw),
    ("SETUP_RETR", .setupRetr), ("RF_CH", .rfCh), ("RF_SETUP", .rfSetup), ("STATUS", .status),
    ("OBSERVE_TX", .observeTx), ("RPD", .rpd), ("CD", .rpd), ("RX_ADDR_P0", .rxAddrP0), ("RX_ADDR_P1", .rxAddrP1),
    ("RX_ADDR_P2", .rxAddrP2), ("RX_ADDR_P3", .rxAddrP3), ("RX_ADDR_P4", .rxAddrP4), ("RX_ADDR_P5", .rxAddrP5),
    ("TX_ADDR", .txAddr), ("RX_PW_P0", .rxPwP0), ("RX_PW_P1", .rxPwP1), ("RX_PW_P2", .rxPwP2), ("RX_PW_P3", .rxPwP3),
    ("RX_PW_P4", .rxPwP4), ("RX_PW_P5", .rxPwP5), ("FIFO_STATUS", .fifoStatus), ("DYNPD", .dynpd),
    ("FEATURE", .feature)].lookup word

/-- A token of a request's text. -/
inductive Token where
  | word (chars : List Char)
  | lpar | rpar | lbrack | rbrack | comma | dash
  deriving DecidableEq, Repr

/-- A character of a name or a number. -/
def isWordChar (ch : Char) : Bool :=
  decide ('a' ≤ ch ∧ ch ≤ 'z') || decide ('A' ≤ ch ∧ ch ≤ 'Z') || decide ('0' ≤ ch ∧ ch ≤ '9') || ch == '_'

/-- The token of a punctuation character. -/
def punctOf (ch : Char) : Option Token :=
  if ch == '(' then some .lpar else if ch == ')' then some .rpar else if ch == '[' then some .lbrack
  else if ch == ']' then some .rbrack else if ch == ',' then some .comma else if ch == '-' then some .dash else none

/-- End the word read so far (held backwards), if there is one, before the tokens after it. -/
def endWord (back : List Char) (rest : List Token) : List Token :=
  if back.isEmpty then rest else .word back.reverse :: rest

/-- The tokens of a text; `none` where a character belongs to no token. -/
def tokens : List Char → List Char → Option (List Token)
  | [], back => some (endWord back [])
  | ch :: rest, back =>
    if isWordChar ch then tokens rest (ch :: back)
    else if ch == ' ' then (tokens rest []).map (endWord back)
    else
      match punctOf ch with
      | some t => (tokens rest []).map fun ts => endWord back (t :: ts)
      | none => none

/-- The value of a digit in bases up to sixteen. -/
def digitOf (ch : Char) : Option Nat :=
  ['0', '1', '2', '3', '4', '5', '6', '7', '8', '9', 'A', 'B', 'C', 'D', 'E', 'F'].idxOf? ch <|>
    ['0', '1', '2', '3', '4', '5', '6', '7', '8', '9', 'a', 'b', 'c', 'd', 'e', 'f'].idxOf? ch

/-- The digits of a number in a base, most significant first. -/
def digits (base : Nat) : List Char → Nat → Option Nat
  | [], acc => some acc
  | ch :: rest, acc =>
    match digitOf ch with
    | some d => if d < base then digits base rest (acc * base + d) else none
    | none => none

/-- A number: hexadecimal with the prefix 0x, binary with 0b, else decimal (00_scope.md R9). -/
def numberOf (chars : List Char) : Option Nat :=
  match chars with
  | [] => none
  | '0' :: 'x' :: ds => if ds.isEmpty then none else digits 16 ds 0
  | '0' :: 'b' :: ds => if ds.isEmpty then none else digits 2 ds 0
  | ds => digits 10 ds 0

/-- A number that fits a byte. -/
def byteOf (chars : List Char) : Option Byte :=
  match numberOf chars with
  | some v => if v < 256 then some (BitVec.ofNat 8 v) else none
  | none => none

/-- A register address: a number or a register name (30_encoding.md R89). -/
def addressOf (chars : List Char) : Option Byte :=
  match regNameOf (String.ofList chars) with
  | some r => some (regNameAddress r)
  | none => byteOf chars

/-- The bytes of a list after its opening bracket, and the tokens after its closing bracket. -/
def listedBytes : List Token → Option (List Byte × List Token)
  | .rbrack :: rest => some ([], rest)
  | .word w :: .rbrack :: rest => (byteOf w).map fun b => ([b], rest)
  | .word w :: .comma :: rest =>
    match byteOf w, listedBytes rest with
    | some b, some (bs, rest') => if bs.isEmpty then none else some (b :: bs, rest')
    | _, _ => none
  | _ => none

/-- The last argument and the end of a call: `, n)`. -/
def lastCount : List Token → Option Nat
  | [.comma, .word w, .rpar] => numberOf w
  | _ => none

/-- The arguments `[b0, ..., bn-1], n)`. -/
def listAndCount (ts : List Token) : Option (List Byte × Nat) :=
  match ts with
  | .lbrack :: rest =>
    match listedBytes rest with
    | some (bs, rest') => (lastCount rest').map fun n => (bs, n)
    | none => none
  | _ => none

/-- The arguments `in` or `-`, then the count, of TRANSCEIVE. -/
def inboundAndCount (ts : List Token) : Option (Bool × Nat) :=
  match ts with
  | .comma :: .dash :: rest => (lastCount rest).map fun n => (false, n)
  | .comma :: .word w :: rest => if w = "in".toList then (lastCount rest).map fun n => (true, n) else none
  | _ => none

/-- The call a token list spells (30_encoding.md R89). -/
def callOfTokens (ts : List Token) : Option Call :=
  match ts with
  | .word f :: .lpar :: args =>
    match String.ofList f, args with
    | "R_REGISTER", .word a :: rest =>
      match addressOf a, lastCount rest with
      | some addr, some n => some (.rRegister addr n)
      | _, _ => none
    | "W_REGISTER", .word a :: .comma :: rest =>
      match addressOf a, listAndCount rest with
      | some addr, some (bs, n) => some (.wRegister addr bs n)
      | _, _ => none
    | "R_RX_PAYLOAD", rest => (lastCount (.comma :: rest)).map Call.rRxPayload
    | "W_TX_PAYLOAD", rest => (listAndCount rest).map fun (bs, n) => .wTxPayload bs n
    | "FLUSH_TX", [.rpar] => some .flushTx
    | "FLUSH_RX", [.rpar] => some .flushRx
    | "REUSE_TX_PL", [.rpar] => some .reuseTxPl
    | "R_RX_PL_WID", [.rpar] => some .rRxPlWid
    | "W_ACK_PAYLOAD", .word p :: .comma :: rest =>
      match byteOf p, listAndCount rest with
      | some pipe, some (bs, n) => some (.wAckPayload pipe bs n)
      | _, _ => none
    | "W_TX_PAYLOAD_NOACK", rest => (listAndCount rest).map fun (bs, n) => .wTxPayloadNoack bs n
    | "NOP", [.rpar] => some .nop
    | "TRANSCEIVE", .word c :: .comma :: .dash :: rest =>
      match byteOf c, inboundAndCount rest with
      | some cmd, some (inb, n) => some (.transceive cmd none inb n)
      | _, _ => none
    | "TRANSCEIVE", .word c :: .comma :: .lbrack :: rest =>
      match byteOf c, listedBytes rest with
      | some cmd, some (bs, rest') => (inboundAndCount rest').map fun (inb, n) => .transceive cmd (some bs) inb n
      | _, _ => none
    | _, _ => none
  | _ => none

/-- The request a text spells, or `none` where it spells no request (30_encoding.md R89). -/
def requestOfText (text : String) : Option Request :=
  match tokens text.toList [] with
  | some ts => (callOfTokens ts).bind assemble
  | none => none

end Sys2Proof.Machine
end

