-- ==== Sys2Proof/Machine/Transact.lean ====
section
/-! DEFINITION. One transaction as one function of the raw request word and the SIL's result, written from the tables of
the spec and not from the machine: Check (60_exceptions.md R192), Params (42_operations.md R160), Frame
(41_transaction_framer.md R132) and Transact (41_transaction_framer.md R141). The claims hold the machine against it. -/

namespace Sys2Proof.Machine

/-- Check(req), over configured parameters (60_exceptions.md R192). -/
def checkReq (c : Config.Params) (req : Word) : Option Cause :=
  let op := (reqOp req).toNat
  let d := (reqOperand req).toNat
  let l := (reqLen req).toNat
  if op ∈ [0xB, 0xC, 0xD, 0xE] then some .reservedOp
  else if op ∈ [0x0, 0x1] ∧ Config.regAddrMax < d then some .operandRange
  else if op = 0x8 ∧ c.pipeMax < d then some .operandRange
  else if op ∈ [0x0, 0x1, 0x2, 0x3, 0x8, 0x9, 0xF] ∧ c.nMax < l then some .lengthRange
  else none

/-- Params(req), over a configured table OPC (42_operations.md R160). It is asked only after Check found no failure; the
last row stands for OP 0xF. -/
def paramsReq (t : Config.OpcTable) (req : Word) : FrameParams :=
  let d := reqOperand req
  let l := reqLen req
  match (reqOp req).toNat with
  | 0x0 => ⟨opcOf t .rRegister ||| (d &&& 0x1F), l, false, true⟩
  | 0x1 => ⟨opcOf t .wRegister ||| (d &&& 0x1F), l, true, false⟩
  | 0x2 => ⟨opcOf t .rRxPayload, l, false, true⟩
  | 0x3 => ⟨opcOf t .wTxPayload, l, true, false⟩
  | 0x4 => ⟨opcOf t .flushTx, 0, false, false⟩
  | 0x5 => ⟨opcOf t .flushRx, 0, false, false⟩
  | 0x6 => ⟨opcOf t .reuseTxPl, 0, false, false⟩
  | 0x7 => ⟨opcOf t .rRxPlWid, 1, false, true⟩
  | 0x8 => ⟨opcOf t .wAckPayload ||| (d &&& 0x07), l, true, false⟩
  | 0x9 => ⟨opcOf t .wTxPayloadNoack, l, true, false⟩
  | 0xA => ⟨opcOf t .nop, 0, false, false⟩
  | _ => ⟨d, l, reqOutEn req, reqInEn req⟩

/-- Frame(cmd, out, n): the command byte, then n bytes of the outbound payload or n filler bytes
(41_transaction_framer.md R132). -/
def frameOf (cmd : Byte) (out : Option (List Byte)) (n : Nat) : List Byte :=
  match out with
  | some p => cmd :: p.take n
  | none => cmd :: List.replicate n fill

/-- The frame of a request's one exchange, or `none` where the request is rejected and no exchange takes place
(41_transaction_framer.md R141; 20_memory.md R51). -/
def exchangeOf (c : Config.Params) (q : Request) : Option (List Byte) :=
  match checkReq c q.req with
  | some _ => none
  | none =>
    let p := paramsReq c.opc q.req
    some (frameOf p.cmd (if p.oe then some q.outData.toList else none) p.n.toNat)

/-- Transact(req, OUT_DATA, result): the response to a request, given what the SIL answers to its exchange
(41_transaction_framer.md R141). A rejected request does not use the result. -/
def transact (c : Config.Params) (q : Request) (result : SilResult) : ResponseLatch :=
  match checkReq c q.req with
  | some cause =>
    { kind := .precond, perr := some cause, status := 0, inValid := false, inLen := 0, inBytes := noInBytes, errCode := 0 }
  | none =>
    let p := paramsReq c.opc q.req
    match result with
    | .err code =>
      { kind := .busErr, errCode := code, status := 0, perr := none, inValid := false, inLen := 0, inBytes := noInBytes }
    | .ok rx =>
      { kind := .ok, status := rx[0], perr := none, errCode := 0, inValid := p.ie, inLen := if p.ie then p.n else 0
        inBytes := Vector.ofFn fun i : Fin Config.lanes =>
          if p.ie && decide (i.val < p.n.toNat) then rx[i.val + 1]'(by omega) else 0 }

end Sys2Proof.Machine
end

