-- ==== Sys2Proof/Safety.lean ====
section
/-! DEFINITION. The terms the claims use: what holds of every state a run reaches, what a meaning leaves unchanged, and
which scenarios of the environment serve a program of requests. -/

namespace Sys2Proof.Safety

open Sys2Proof.Machine

/-- Every latch of 10_state.md R24 to R28 holds no value (R27, R29). -/
def LatchesEmpty (s : State) : Prop :=
  s.cmd = none ∧ s.len = none ∧ s.inEn = none ∧ s.txbuf = noBytes ∧ s.rxbuf = noBytes ∧ s.rsp = none

/-- The two states agree on every register of the CPED (10_state.md R31), and on its parameters. -/
def SameRegisters (s t : State) : Prop :=
  t.cfg = s.cfg ∧ t.ctrl = s.ctrl ∧ t.cmd = s.cmd ∧ t.len = s.len ∧ t.inEn = s.inEn ∧ t.txbuf = s.txbuf ∧
  t.rxbuf = s.rxbuf ∧ t.rsp = s.rsp

/-- The two states agree on the environment: the input signals, the scenario and the free drives taken. -/
def SameEnvironment (s t : State) : Prop := t.port = s.port ∧ t.env = s.env ∧ t.draws = s.draws

/-- The two states agree on the observation of the run (00_scope.md R19). -/
def SameObservation (s t : State) : Prop := t.sent = s.sent ∧ t.taken = s.taken

/-- Positions 0..n of the buffer hold a value and the others hold none (10_state.md R25). -/
def FilledTo (buf : Vector (Option Byte) (Config.lanes + 1)) (n : Nat) : Prop :=
  ∀ (i : Nat) (h : i < Config.lanes + 1), buf[i].isSome = decide (i ≤ n)

/-- A frame is latched: CMD, LEN, IN_EN hold values, LEN is at most N_MAX, and TXBUF holds LEN + 1 bytes, the command
byte first (10_state.md R24, R25, R31; 41_transaction_framer.md R132). -/
def FrameLatched (s : State) : Prop :=
  ∃ cmd n ie, s.cmd = some cmd ∧ s.len = some n ∧ n.toNat ≤ s.cfg.nMax ∧ s.inEn = some ie ∧
    FilledTo s.txbuf n.toNat ∧ s.txbuf[0] = some cmd

/-- The fields of a response latch agree with its kind (10_state.md R28; 30_encoding.md R80). -/
def ResponseConsistent (c : Config.Params) (r : ResponseLatch) : Prop :=
  (r.kind ≠ .ok → r.status = 0 ∧ r.inValid = false) ∧
  (r.perr.isSome ↔ r.kind = .precond) ∧
  (r.inValid = false → r.inLen = 0) ∧
  r.inLen.toNat ≤ c.nMax ∧
  (∀ (i : Nat) (h : i < Config.lanes), r.inLen.toNat ≤ i → r.inBytes[i] = 0) ∧
  (r.kind ≠ .busErr → r.errCode = 0)

/-- What holds of every state a run reaches: each register holds a value exactly when the spec says it does, and a legal
one (10_state.md R22 to R31; 20_memory.md R57); the parameters meet the constraints of 00_scope.md R7. -/
def StateInv (s : State) : Prop :=
  s.cfg.admissible = true ∧
  match s.ctrl with
  | .idle => LatchesEmpty s
  | .issue => FrameLatched s ∧ s.rxbuf = noBytes ∧ s.rsp = none
  | .wait => FrameLatched s ∧ s.rxbuf = noBytes ∧ s.rsp = none
  | .resp =>
    ∃ r, s.rsp = some r ∧ ResponseConsistent s.cfg r ∧
      match r.kind with
      | .ok => FrameLatched s ∧ (∀ n, s.len = some n → FilledTo s.rxbuf n.toNat) ∧ s.inEn = some r.inValid ∧
          (r.inValid = true → s.len = some r.inLen)
      | .busErr => FrameLatched s ∧ s.rxbuf = noBytes
      | .precond => s.cmd = none ∧ s.len = none ∧ s.inEn = none ∧ s.txbuf = noBytes ∧ s.rxbuf = noBytes

/-- `t` is `s` after the accepting half of ACCEPT with this command byte, payload and inbound choice: the frame
`[cmd] ++ payload` is latched and offered, and nothing else of the state is changed (41_transaction_framer.md R131). -/
def FrameBuilt (s t : State) (cmd : Byte) (n : Len) (payload : List Byte) (ie : Bool) : Prop :=
  t.ctrl = .issue ∧ t.cmd = some cmd ∧ t.len = some n ∧ t.inEn = some ie ∧
  t.xtx = some (cmd :: payload) ∧ t.xlen = some (BitVec.ofNat 7 (payload.length + 1)) ∧ payload.length = n.toNat ∧
  (∀ (i : Nat) (h : i < Config.lanes + 1), n.toNat < i → t.txbuf[i] = s.txbuf[i]) ∧
  t.rxbuf = s.rxbuf ∧ t.rsp = s.rsp ∧ t.cfg = s.cfg ∧ SameEnvironment s t ∧ SameObservation s t

/-- `t` is `s` after a rejected ACCEPT: the response latch holds the cause, the state is RESP, and nothing else of the
state is changed (60_exceptions.md R191, R201). -/
def RejectedWith (s t : State) (c : Cause) : Prop :=
  t = { s with
    ctrl := .resp
    rsp := some
      { kind := .precond, perr := some c, status := 0, inValid := false, inLen := 0,
        inBytes := Vector.replicate Config.lanes 0, errCode := 0 } }

/-- The response latch of an exchange that completed: STATUS is received byte 0; received bytes 1..n are inbound bytes
0..n-1 where the request asked for them, and every other lane is 0 (41_transaction_framer.md R136 to R139). -/
def OkResponse (r : ResponseLatch) (xrx : Vector Byte (Config.lanes + 1)) (n : Len) (ie : Bool) : Prop :=
  r.kind = .ok ∧ r.status = xrx[0] ∧ r.perr = none ∧ r.errCode = 0 ∧ r.inValid = ie ∧
  r.inLen = (if ie then n else 0) ∧
  ∀ (i : Nat) (h : i < Config.lanes), r.inBytes[i] = if ie = true ∧ i < n.toNat then xrx[i + 1] else 0

/-- In WAIT, with the registers ACCEPT left in `t`, either result of the SIL gives the response the operation promises:
`ok` the status byte and the inbound bytes, `err` BUS_ERR with the SIL's code (41_transaction_framer.md R136;
60_exceptions.md R195). -/
def AnswersResult (t : State) (n : Len) (ie : Bool) : Prop :=
  (∀ xrx, ∃ u r, complete (.ok xrx) { t with ctrl := .wait } = .next u ∧ u.ctrl = .resp ∧ u.rsp = some r ∧
    OkResponse r xrx n ie) ∧
  (∀ code, complete (.err code) { t with ctrl := .wait } = .next
    { t with
      ctrl := .resp
      rsp := some
        { kind := .busErr, errCode := code, status := 0, perr := none, inValid := false, inLen := 0,
          inBytes := Vector.replicate Config.lanes 0 } })

/-- The operation `i` at `s` is one transaction with this command byte, payload and inbound choice: its ACCEPT builds the
frame, and the SIL's result answers it (42_operations.md R160; 41_transaction_framer.md R131, R136). -/
def Performs (i : Instr) (s : State) (cmd : Byte) (n : Len) (payload : List Byte) (ie : Bool) : Prop :=
  ∃ t, exec i s = .next t ∧ FrameBuilt s t cmd n payload ie ∧ AnswersResult t n ie

/-- The operation `i` at `s` is rejected with this cause (60_exceptions.md R191). -/
def Rejects (i : Instr) (s : State) (c : Cause) : Prop := ∃ t, exec i s = .next t ∧ RejectedWith s t c

/-- The bytes OUT_DATA[0..n-1] on the request port (30_encoding.md R76). -/
def outBytes (s : State) (n : Len) : List Byte := s.port.outData.toList.take n.toNat

/-- `n` filler bytes (40_command_encoding.md R103). -/
def fillers (n : Len) : List Byte := List.replicate n.toNat 0xFF

/-- Entries of a scenario in which nothing passes: RST low, and the awaited signal low. -/
def Waits (awaited : Config.Inputs → Bool) (es : List Config.Inputs) : Prop :=
  ∀ e ∈ es, e.rst = false ∧ awaited e = false

/-- The entry in which the requester offers `q`. -/
def Offers (q : Request) (e : Config.Inputs) : Prop :=
  e.rst = false ∧ e.reqValid = true ∧ e.req = q.req ∧ e.outData = q.outData

/-- An entry in which the awaited signal is high, with RST low. -/
def Raises (awaited : Config.Inputs → Bool) (e : Config.Inputs) : Prop := e.rst = false ∧ awaited e = true

/-- A request offered in `e` is still offered, unchanged, in `e'` (70_reset_and_hazards.md R232). -/
def KeepsRequest (e e' : Config.Inputs) : Prop :=
  e.reqValid = true → e'.reqValid = true ∧ e'.req = e.req ∧ e'.outData = e.outData

/-- The scenario `lead ++ busy` serves the request `q` with the SIL's result `r`: at the end of `lead` the request is offered;
in `busy` the SIL takes the frame and returns `r`, and the requester takes the response, each after any number of steps of
waiting; a rejected request has no exchange (20_memory.md R64; 70_reset_and_hazards.md R241). In `busy` the requester may
already offer its next request. -/
inductive Serves (c : Config.Params) (q : Request) (r : SilResult) : List Config.Inputs → List Config.Inputs → Prop where
  | accepted (w₀ w₁ w₂ w₃ : List Config.Inputs) (e₀ e₁ e₂ e₃ : Config.Inputs)
      (pass : checkReq c q.req = none)
      (idle : Waits (·.reqValid) w₀) (offer : Offers q e₀)
      (busy : Waits (·.xreqReady) w₁) (take : Raises (·.xreqReady) e₁)
      (pending : Waits (·.xrspValid) w₂) (result : Raises (·.xrspValid) e₂) (answer : silResult e₂ = r)
      (late : Waits (·.rspReady) w₃) (deliver : Raises (·.rspReady) e₃) :
      Serves c q r (w₀ ++ [e₀]) (w₁ ++ e₁ :: (w₂ ++ e₂ :: (w₃ ++ [e₃])))
  | rejected (w₀ w₃ : List Config.Inputs) (e₀ e₃ : Config.Inputs)
      (fail : checkReq c q.req ≠ none)
      (idle : Waits (·.reqValid) w₀) (offer : Offers q e₀)
      (late : Waits (·.rspReady) w₃) (deliver : Raises (·.rspReady) e₃) :
      Serves c q r (w₀ ++ [e₀]) (w₃ ++ [e₃])

/-- The scenario, with `rest` after it, serves a program: its requests one after the other, each with its result
(10_state.md R21). A request offered while the CPED is busy stays offered until the CPED is idle
(70_reset_and_hazards.md R232). -/
inductive ServesAll (c : Config.Params) (rest : List Config.Inputs) :
    List (Request × SilResult) → List Config.Inputs → Prop where
  | done : ServesAll c rest [] []
  | next (q : Request) (r : SilResult) (program : List (Request × SilResult)) (lead busy es : List Config.Inputs)
      (first : Serves c q r lead busy) (stable : (busy ++ (es ++ rest).take 1).IsChain KeepsRequest)
      (others : ServesAll c rest program es) : ServesAll c rest ((q, r) :: program) (lead ++ busy ++ es)

/-- The request word has these fields, its bits above them are 0, and the listed bytes stand on the first lanes of OUT_DATA
(30_encoding.md R70, R89). -/
def Spells (q : Request) (op : BitVec 4) (operand : Byte) (n : Nat) (outEn inEn : Bool) (data : List Byte) : Prop :=
  reqOp q.req = op ∧ reqOperand q.req = operand ∧ (reqLen q.req).toNat = n ∧ reqOutEn q.req = outEn ∧
  reqInEn q.req = inEn ∧ q.req.extractLsb' 20 12 = 0 ∧ q.outData.toList.take data.length = data

end Sys2Proof.Safety
end

