-- ==== Sys2Proof/Certificates/Slice0/Obligations.lean ====
section
/-! DEFINITION. The statements about the CPED, each with the rule of spec/ it formalises. A rejected or waiting form of an
instruction has its own clause beside the clause that says where it completes. -/

open Sys2Proof Sys2Proof.Machine Sys2Proof.Safety

/-! ### Encoding -/

/-- Request words written out from 30_encoding.md R70 (95_test_vectors.md V1, V9, V20, V27, V30, V41, V44, V48, V63, V82)
decode to the requests they stand for. -/
def Obligations.WrittenRequestWordsDecode : Prop :=
  decodeTableWord 32 0b00000000000000_000001_00000000_0000 = some (.rRegister 0x00 1) ∧
  decodeTableWord 32 0b00000000000000_000001_00011101_0001 = some (.wRegister 0x1D 1) ∧
  decodeTableWord 32 0b00000000000000_000010_00000000_0010 = some (.rRxPayload 2) ∧
  decodeTableWord 32 0b00000000000000_111111_00000000_0011 = some (.wTxPayload 63) ∧
  decodeTableWord 32 0b00000000000000_111111_11111111_0100 = some .flushTx ∧
  decodeTableWord 32 0b00000000000000_000000_00000000_0111 = some .rRxPlWid ∧
  decodeTableWord 32 0b00000000000000_000010_00000101_1000 = some (.wAckPayload 5 2) ∧
  decodeTableWord 32 0b11111111111111_111111_11111111_1010 = some .nop ∧
  decodeTableWord 32 0b00000000000011_000010_01100001_1111 = some (.transceive 0x61 2 true true) ∧
  decodeTableWord 32 0b00000000000000_111111_00000000_1110 = some .reservedE

/-- Decoding the encoding of any instruction gives it back, every operand at every value of its field, whether the CPED
admits it or not (30_encoding.md R70 to R77), and through the table's numbering of the bits too. -/
def Obligations.DecodeOfEncodeIsTheInstruction : Prop :=
  ∀ i : Instr, decodeWord (encode i) = i ∧ decodeTableWord 32 (encode i).toNat = some i

/-- 30_encoding.md R70: each field of a request word stands at its bits, a word is built from its fields as the rule says,
and the reserved bits [31:20] are ignored. -/
def Obligations.RequestFieldsStandAtTheirBits : Prop :=
  (∀ w : Word, decodeWord (w &&& 0x000FFFFF) = decodeWord w) ∧
  ∀ (op : BitVec 4) (operand : Byte) (len : Len) (outEn inEn : Bool),
    let w := buildReq op operand len outEn inEn
    reqOp w = op ∧ reqOperand w = operand ∧ reqLen w = len ∧ reqOutEn w = outEn ∧ reqInEn w = inEn ∧
      w.toNat = op.toNat + operand.toNat * 2 ^ 4 + len.toNat * 2 ^ 12 + outEn.toNat * 2 ^ 18 + inEn.toNat * 2 ^ 19

/-- 30_encoding.md R71: OP, and nothing else of the word, selects the operation, in the order of the table. -/
def Obligations.OpFieldSelectsTheOperation : Prop :=
  ∀ w : Word,
    (reqOp w = 0x0 ↔ decodeWord w = .rRegister (reqOperand w) (reqLen w)) ∧
    (reqOp w = 0x1 ↔ decodeWord w = .wRegister (reqOperand w) (reqLen w)) ∧
    (reqOp w = 0x2 ↔ decodeWord w = .rRxPayload (reqLen w)) ∧
    (reqOp w = 0x3 ↔ decodeWord w = .wTxPayload (reqLen w)) ∧
    (reqOp w = 0x4 ↔ decodeWord w = .flushTx) ∧
    (reqOp w = 0x5 ↔ decodeWord w = .flushRx) ∧
    (reqOp w = 0x6 ↔ decodeWord w = .reuseTxPl) ∧
    (reqOp w = 0x7 ↔ decodeWord w = .rRxPlWid) ∧
    (reqOp w = 0x8 ↔ decodeWord w = .wAckPayload (reqOperand w) (reqLen w)) ∧
    (reqOp w = 0x9 ↔ decodeWord w = .wTxPayloadNoack (reqLen w)) ∧
    (reqOp w = 0xA ↔ decodeWord w = .nop) ∧
    (reqOp w = 0xB ↔ decodeWord w = .reservedB) ∧
    (reqOp w = 0xC ↔ decodeWord w = .reservedC) ∧
    (reqOp w = 0xD ↔ decodeWord w = .reservedD) ∧
    (reqOp w = 0xE ↔ decodeWord w = .reservedE) ∧
    (reqOp w = 0xF ↔ decodeWord w = .transceive (reqOperand w) (reqLen w) (reqOutEn w) (reqInEn w))

/-- 30_encoding.md R75: two request words that differ only in bits their operation ignores are the same instruction, and
offered in IDLE they give the same step. -/
def Obligations.IgnoredRequestBitsHaveNoEffect : Prop :=
  ∀ (w w' : Word), reqOp w = reqOp w' → w &&& usedBits (reqOp w) = w' &&& usedBits (reqOp w) →
    decodeWord w = decodeWord w' ∧
    ∀ s : State, s.acceptReady = true → s.port.reqValid = true →
      step { s with port := { s.port with req := w } } = step { s with port := { s.port with req := w' } }

/-- 30_encoding.md R76: where the operation sends an outbound payload, lane i of OUT_DATA is payload byte i for i < N; the
lanes at and above N, and every lane where the operation sends none or the request is rejected, have no effect on the step
that accepts it. -/
def Obligations.UnusedOutDataLanesHaveNoEffect : Prop :=
  (∀ s : State, s.acceptReady = true → s.port.reqValid = true → checkReq s.cfg s.port.req = none →
    (paramsReq s.cfg.opc s.port.req).oe = true →
    ∃ t, step s = .next t ∧ ∀ (i : Nat) (h : i < Config.lanes), i < (paramsReq s.cfg.opc s.port.req).n.toNat →
      t.txbuf[i + 1] = some s.port.outData[i]) ∧
  ∀ (s : State) (lanes : Vector Byte Config.lanes), s.acceptReady = true → s.port.reqValid = true →
    (checkReq s.cfg s.port.req = none → (paramsReq s.cfg.opc s.port.req).oe = true →
      ∀ (i : Nat) (h : i < Config.lanes), i < (paramsReq s.cfg.opc s.port.req).n.toNat →
        lanes[i] = s.port.outData[i]) →
    step { s with port := { s.port with outData := lanes } } = step s

/-! ### The command byte -/

/-- 40_command_encoding.md R103: the filler byte is 0xFF and equals OPC(NOP), in every configured table. -/
def Obligations.FillerIsNopOpcode : Prop :=
  fill = 0xFF ∧ ∀ t : Config.OpcTable, fill = opcOf t .nop

/-- The default parameters of 00_scope.md R7, in the state after reset: N_MAX 32, PIPE_MAX 5 and the OPC base column of
30_encoding.md R86, four values of the source and seven from general knowledge (40_command_encoding.md R101; the model's
choice of the defaults is assumptions 2 and 5); they meet the constraints of R7. -/
def Obligations.DefaultOpcodeTable : Prop :=
  let c := State.reset.cfg
  c.admissible = true ∧ c.nMax = 32 ∧ c.pipeMax = 5 ∧
  opcOf c.opc .rRegister = 0x00 ∧ opcOf c.opc .wRegister = 0x20 ∧ opcOf c.opc .rRxPayload = 0x61 ∧
  opcOf c.opc .wTxPayload = 0xA0 ∧ opcOf c.opc .flushTx = 0xE1 ∧ opcOf c.opc .flushRx = 0xE2 ∧
  opcOf c.opc .reuseTxPl = 0xE3 ∧ opcOf c.opc .rRxPlWid = 0x60 ∧ opcOf c.opc .wAckPayload = 0xA8 ∧
  opcOf c.opc .wTxPayloadNoack = 0xB0 ∧ opcOf c.opc .nop = 0xFF

/-- 30_encoding.md R87, and the composition of 40_command_encoding.md R105, over every admissible table: the operand stands
in its field of the command byte, not shifted; OR equals addition, and the base and the operand are recovered from the
byte; no other operation has an operand. -/
def Obligations.ComposeByFormat : Prop :=
  ∀ (c : Config.Params) (op : Opcode) (operand : Byte), c.admissible = true →
    (op ≠ .rRegister → op ≠ .wRegister → op ≠ .wAckPayload → compose c.opc op operand = opcOf c.opc op) ∧
    (op = .rRegister ∨ op = .wRegister →
      compose c.opc op operand = opcOf c.opc op ||| operand &&& 0x1F ∧
      compose c.opc op operand = opcOf c.opc op + (operand &&& 0x1F) ∧
      compose c.opc op operand &&& 0xE0 = opcOf c.opc op ∧
      compose c.opc op operand &&& 0x1F = operand &&& 0x1F) ∧
    (op = .wAckPayload →
      compose c.opc op operand = opcOf c.opc op ||| operand &&& 0x07 ∧
      compose c.opc op operand = opcOf c.opc op + (operand &&& 0x07) ∧
      compose c.opc op operand &&& 0xF8 = opcOf c.opc op ∧
      compose c.opc op operand &&& 0x07 = operand &&& 0x07)

/-- 40_command_encoding.md R106: for every register address 0 to 0x1D the two commands are `a` and `0x20 + a`, and the
command byte alone tells the operation and the address. -/
def Obligations.RegisterCommandBytesDoNotCollide : Prop :=
  ∀ (t : Config.OpcTable) (a b : Byte), a.toNat ≤ 0x1D → b.toNat ≤ 0x1D →
    compose t .rRegister a = a ∧ compose t .wRegister a = 0x20 + a ∧
    compose t .rRegister a ≠ compose t .wRegister b ∧
    (compose t .rRegister a = compose t .rRegister b → a = b) ∧
    (compose t .wRegister a = compose t .wRegister b → a = b)

/-! ### The checks -/

/-- 30_encoding.md R72, R73: a request passes Check exactly when its operand and its length are admitted, for the
operations that use them. -/
def Obligations.ContractIsWhatCheckAdmits : Prop :=
  ∀ (c : Config.Params) (w : Word), Instr.wellFormed c (decodeWord w) = true ↔ checkReq c w = none

/-- 42_operations.md R174: for a request inside the caller contract ACCEPT fails nothing, and the frame it builds can
end in OK or in the SIL's BUS_ERR and in no other way. -/
def Obligations.ContractRequestsFailOnlyOnTheBus : Prop :=
  ∀ (i : Instr) (s : State), s.cfg.admissible = true → Instr.wellFormed s.cfg i = true → s.acceptReady = true →
    ∃ t, exec i s = .next t ∧ t.ctrl = .issue ∧
      ∀ r : SilResult, ∃ u l, complete r { t with ctrl := .wait } = .next u ∧ u.rsp = some l ∧
        ((l.kind = .ok ∧ ∃ xrx, r = .ok xrx) ∨ (l.kind = .busErr ∧ r = .err l.errCode))

/-- 60_exceptions.md R193, over every configuration: RESERVED_OP comes before OPERAND_RANGE, and OPERAND_RANGE before
LENGTH_RANGE. N_MAX and PIPE_MAX are parameters (00_scope.md R7). -/
def Obligations.CheckPriority : Prop :=
  ∀ (c : Config.Params) (w : Word),
    let op := (reqOp w).toNat
    let badOperand := (op ≤ 0x1 ∧ 0x1D < (reqOperand w).toNat) ∨ (op = 0x8 ∧ c.pipeMax < (reqOperand w).toNat)
    let usesLen := op ≤ 0x3 ∨ op = 0x8 ∨ op = 0x9 ∨ op = 0xF
    (checkReq c w = some .reservedOp ↔ 0xB ≤ op ∧ op ≤ 0xE) ∧
    (checkReq c w = some .operandRange ↔ badOperand) ∧
    (checkReq c w = some .lengthRange ↔ usesLen ∧ ¬ badOperand ∧ c.nMax < (reqLen w).toNat)

/-- 41_transaction_framer.md R131 and 60_exceptions.md R191, with Check (60_exceptions.md R192) and Params
(42_operations.md R160) as functions of the raw request word: ACCEPT rejects with Check's cause, or builds the frame of
Params' row; it takes place on the step on which IDLE meets a valid request. That the step then goes on to the environment's
next input signals is the model's environment (assumption 3). -/
def Obligations.AcceptFollowsCheckAndParams : Prop :=
  ∀ (w : Word) (s : State), s.cfg.admissible = true → s.acceptReady = true →
    (∀ c, checkReq s.cfg w = some c → Rejects (decodeWord w) s c) ∧
    (checkReq s.cfg w = none →
      let p := paramsReq s.cfg.opc w
      Performs (decodeWord w) s p.cmd p.n (if p.oe then outBytes s p.n else fillers p.n) p.ie) ∧
    (s.port.reqValid = true → s.port.req = w →
      step s = onNext (exec (decodeWord w) s) fun t => .next (t.advance true))

/-- 42_operations.md R161: an operation that passes Check is the TRANSCEIVE of its row of R160. -/
def Obligations.OperationIsItsTransceive : Prop :=
  ∀ (w : Word) (s : State), s.cfg.admissible = true → (reqOp w).toNat ≤ 0xA → checkReq s.cfg w = none →
    let p := paramsReq s.cfg.opc w
    exec (decodeWord w) s = exec (.transceive p.cmd p.n p.oe p.ie) s

/-! ### The operations. Each statement holds for every operand; `s.acceptReady` is IDLE with RST low. -/

/-- 42_operations.md R162. -/
def Obligations.ReadRegisterTransaction : Prop :=
  (∀ w : Word, reqOp w = 0x0 → decodeWord w = .rRegister (reqOperand w) (reqLen w)) ∧
  ∀ (addr : Byte) (n : Len) (s : State), s.acceptReady = true →
    (addr.toNat ≤ 0x1D → n.toNat ≤ s.cfg.nMax →
      Performs (.rRegister addr n) s (0x00 ||| addr &&& 0x1F) n (fillers n) true) ∧
    (0x1D < addr.toNat → Rejects (.rRegister addr n) s .operandRange) ∧
    (addr.toNat ≤ 0x1D → s.cfg.nMax < n.toNat → Rejects (.rRegister addr n) s .lengthRange)

/-- 42_operations.md R163. -/
def Obligations.WriteRegisterTransaction : Prop :=
  (∀ w : Word, reqOp w = 0x1 → decodeWord w = .wRegister (reqOperand w) (reqLen w)) ∧
  ∀ (addr : Byte) (n : Len) (s : State), s.acceptReady = true →
    (addr.toNat ≤ 0x1D → n.toNat ≤ s.cfg.nMax →
      Performs (.wRegister addr n) s (0x20 ||| addr &&& 0x1F) n (outBytes s n) false) ∧
    (0x1D < addr.toNat → Rejects (.wRegister addr n) s .operandRange) ∧
    (addr.toNat ≤ 0x1D → s.cfg.nMax < n.toNat → Rejects (.wRegister addr n) s .lengthRange)

/-- 42_operations.md R164, over the table OPC. -/
def Obligations.ReadRxPayloadTransaction : Prop :=
  (∀ w : Word, reqOp w = 0x2 → decodeWord w = .rRxPayload (reqLen w)) ∧
  ∀ (n : Len) (s : State), s.acceptReady = true →
    (n.toNat ≤ s.cfg.nMax → Performs (.rRxPayload n) s (opcOf s.cfg.opc .rRxPayload) n (fillers n) true) ∧
    (s.cfg.nMax < n.toNat → Rejects (.rRxPayload n) s .lengthRange)

/-- 42_operations.md R165 and R171, over the table OPC: the two payload writes differ in their opcode only. -/
def Obligations.WriteTxPayloadTransactions : Prop :=
  (∀ w : Word, (reqOp w = 0x3 → decodeWord w = .wTxPayload (reqLen w)) ∧
    (reqOp w = 0x9 → decodeWord w = .wTxPayloadNoack (reqLen w))) ∧
  ∀ (n : Len) (s : State), s.acceptReady = true →
    (n.toNat ≤ s.cfg.nMax →
      Performs (.wTxPayload n) s (opcOf s.cfg.opc .wTxPayload) n (outBytes s n) false ∧
      Performs (.wTxPayloadNoack n) s (opcOf s.cfg.opc .wTxPayloadNoack) n (outBytes s n) false) ∧
    (s.cfg.nMax < n.toNat → Rejects (.wTxPayload n) s .lengthRange ∧ Rejects (.wTxPayloadNoack n) s .lengthRange)

/-- 42_operations.md R166, R167, R168, over the table OPC: the FIFO controls send their opcode alone. -/
def Obligations.FifoControlTransactions : Prop :=
  (∀ w : Word, (reqOp w = 0x4 → decodeWord w = .flushTx) ∧ (reqOp w = 0x5 → decodeWord w = .flushRx) ∧
    (reqOp w = 0x6 → decodeWord w = .reuseTxPl)) ∧
  ∀ s : State, s.acceptReady = true →
    Performs .flushTx s (opcOf s.cfg.opc .flushTx) 0 [] false ∧
    Performs .flushRx s (opcOf s.cfg.opc .flushRx) 0 [] false ∧
    Performs .reuseTxPl s (opcOf s.cfg.opc .reuseTxPl) 0 [] false

/-- 42_operations.md R169: one filler byte after 0x60, whatever LEN holds, and the width byte is delivered. -/
def Obligations.ReadPayloadWidthTransaction : Prop :=
  (∀ w : Word, reqOp w = 0x7 → decodeWord w = .rRxPlWid) ∧
  ∀ s : State, s.cfg.admissible = true → s.acceptReady = true → Performs .rRxPlWid s 0x60 1 [0xFF] true

/-- 42_operations.md R170, over the table OPC. -/
def Obligations.WriteAckPayloadTransaction : Prop :=
  (∀ w : Word, reqOp w = 0x8 → decodeWord w = .wAckPayload (reqOperand w) (reqLen w)) ∧
  ∀ (pipe : Byte) (n : Len) (s : State), s.acceptReady = true →
    (pipe.toNat ≤ s.cfg.pipeMax → n.toNat ≤ s.cfg.nMax →
      Performs (.wAckPayload pipe n) s (opcOf s.cfg.opc .wAckPayload ||| pipe &&& 0x07) n (outBytes s n) false) ∧
    (s.cfg.pipeMax < pipe.toNat → Rejects (.wAckPayload pipe n) s .operandRange) ∧
    (pipe.toNat ≤ s.cfg.pipeMax → s.cfg.nMax < n.toNat → Rejects (.wAckPayload pipe n) s .lengthRange)

/-- 42_operations.md R172: the one byte 0xFF is sent, and its status returned. -/
def Obligations.NopTransaction : Prop :=
  (∀ w : Word, reqOp w = 0xA → decodeWord w = .nop) ∧
  ∀ s : State, s.acceptReady = true → Performs .nop s 0xFF 0 [] false

/-- 41_transaction_framer.md R130: the requester's byte, unchecked, and all four choices of payload. -/
def Obligations.TransceiveTransaction : Prop :=
  (∀ w : Word, reqOp w = 0xF → decodeWord w = .transceive (reqOperand w) (reqLen w) (reqOutEn w) (reqInEn w)) ∧
  ∀ (cmd : Byte) (n : Len) (oe ie : Bool) (s : State), s.acceptReady = true →
    (n.toNat ≤ s.cfg.nMax →
      Performs (.transceive cmd n oe ie) s cmd n (if oe then outBytes s n else fillers n) ie) ∧
    (s.cfg.nMax < n.toNat → Rejects (.transceive cmd n oe ie) s .lengthRange)

/-- 42_operations.md R173: the four reserved OP values are rejected with RESERVED_OP whatever the other fields hold, and
the response word is 0x00000600. -/
def Obligations.ReservedOpIsRejected : Prop :=
  ∀ s : State, s.acceptReady = true →
    (∀ i ∈ [Instr.reservedB, .reservedC, .reservedD, .reservedE], Rejects i s .reservedOp) ∧
    (∀ w : Word, 0xB ≤ (reqOp w).toNat → (reqOp w).toNat ≤ 0xE →
      ∃ t, exec (decodeWord w) s = .next t ∧ RejectedWith s t .reservedOp ∧
        ∃ q, t.response = some q ∧ q.rsp = 0x00000600)

/-- 10_state.md R36: a request in any state but IDLE is not taken: its ACCEPT changes nothing, and it is still on the port
after the step. ACCEPT changes nothing while RST is high, either (70_reset_and_hazards.md R220). That the meaning of an
instruction where ACCEPT cannot take place is to change nothing is the model's choice (assumption 9), and that the request
stays on the port is how the model holds the requester to its duty (assumption 3). -/
def Obligations.BusyRequestsWait : Prop :=
  (∀ s : State, s.reqReady = true ↔ s.ctrl = .idle) ∧
  (∀ s t : State, step s = .next t → s.port.rst = false → s.ctrl ≠ .idle → s.port.reqValid = true → t.port.rst = false →
    t.port.reqValid = true ∧ t.port.req = s.port.req ∧ t.port.outData = s.port.outData) ∧
  (∀ (i : Instr) (s : State), s.ctrl ≠ .idle → exec i s = .next s) ∧
  (∀ (i : Instr) (s : State), s.port.rst = true → exec i s = .next s)

/-! ### The steps of a transaction -/

/-- A step in IDLE with a request offered runs the instruction its word decodes to, and then the environment drives the
next signals (10_state.md R23; the environment's part is assumption 3). -/
def Obligations.StepRunsTheOfferedRequest : Prop :=
  ∀ (s : State) (i : Instr), s.port.rst = false → s.ctrl = .idle → s.port.reqValid = true →
    decodeWord s.port.req = i →
    step s = onNext (exec i s) fun t => .next (t.advance true)

/-- 41_transaction_framer.md R135: the SIL takes TXBUF[0..LEN], LEN + 1 bytes with the command byte first, and the state
is WAIT. Nothing else of the CPED changes, and no response is taken. -/
def Obligations.HandoffGivesTheWholeFrame : Prop :=
  ∀ (s : State) (n : Len), s.port.rst = false → s.ctrl = .issue → s.port.xreqReady = true → FrameLatched s →
    s.len = some n →
    ∃ t frame, step s = .next t ∧ s.xtx = some frame ∧ frame.length = n.toNat + 1 ∧ frame.head? = s.cmd ∧
      (∀ (i : Nat) (h : i < Config.lanes + 1), i ≤ n.toNat → s.txbuf[i] = frame[i]?) ∧
      s.xlen = some (BitVec.ofNat 7 (n.toNat + 1)) ∧
      t.ctrl = .wait ∧ t.sent = s.sent ++ [frame] ∧ t.taken = s.taken ∧
      SameRegisters { s with ctrl := .wait } t

/-- 41_transaction_framer.md R136, R137, R138, R139: COMPLETE with `ok` writes RXBUF[0..LEN] and the response latch, and
nothing else of the CPED. -/
def Obligations.CompleteOkDeliversTheBytes : Prop :=
  ∀ (s : State) (n : Len) (ie : Bool), s.port.rst = false → s.ctrl = .wait → s.port.xrspValid = true →
    s.port.xrspErr = false → s.len = some n → n.toNat ≤ s.cfg.nMax → s.inEn = some ie →
    ∃ t r, step s = .next t ∧ t.ctrl = .resp ∧ t.rsp = some r ∧ OkResponse r s.port.xrx n ie ∧
      (∀ (i : Nat) (h : i < Config.lanes + 1),
        t.rxbuf[i] = if i ≤ n.toNat then some s.port.xrx[i] else s.rxbuf[i]) ∧
      SameRegisters { s with ctrl := .resp, rsp := some r, rxbuf := t.rxbuf } t ∧ SameObservation s t

/-- 60_exceptions.md R195: COMPLETE with `err` passes the SIL's code through, reads no received byte and writes no
RXBUF byte, in any state of the latches. -/
def Obligations.CompleteErrPassesTheCode : Prop :=
  ∀ s : State, s.port.rst = false → s.ctrl = .wait → s.port.xrspValid = true → s.port.xrspErr = true →
    ∃ t, step s = .next t ∧ SameObservation s t ∧
      SameRegisters
        { s with
          ctrl := .resp
          rsp := some
            { kind := .busErr, errCode := s.port.xrspCode, status := 0, perr := none, inValid := false, inLen := 0,
              inBytes := Vector.replicate Config.lanes 0 } } t

/-- 41_transaction_framer.md R140 and 10_state.md R29: the requester takes RSP, IN_DATA and ERR_CODE, every latch holds no
value again, and the state is IDLE. -/
def Obligations.DeliverTakesTheResponse : Prop :=
  ∀ (s : State) (r : ResponseLatch), s.port.rst = false → s.ctrl = .resp → s.port.rspReady = true → s.rsp = some r →
    ∃ t, step s = .next t ∧ t.ctrl = .idle ∧ LatchesEmpty t ∧ t.sent = s.sent ∧
      t.taken = s.taken ++ [{ rsp := rspWord r, inData := r.inBytes, errCode := r.errCode }]

/-- 70_reset_and_hazards.md R220, R222: RST, in any state and over every other signal, gives IDLE with every latch
without a value; no frame is handed over and no response taken on that step, the outputs are those of IDLE, and an offered
request need not be held (that the scenario's next signals follow is the model's environment, assumption 3). -/
def Obligations.ResetTakesPrecedence : Prop :=
  ∀ s : State, s.port.rst = true →
    ∃ t, step s = .next t ∧ t.ctrl = .idle ∧ LatchesEmpty t ∧ SameObservation s t ∧
      t.reqReady = true ∧ t.rspValid = false ∧ t.xreqValid = false ∧
      ∀ d rest, s.env = d :: rest → t.port = d

/-- 70_reset_and_hazards.md R221: `state` resets to IDLE and every other register to no value; so the outputs that depend on
them have none in the model (assumption 16). -/
def Obligations.ResetStateHoldsNoValues : Prop :=
  State.reset.ctrl = .idle ∧ ctrlBits State.reset.ctrl = 0b00 ∧ LatchesEmpty State.reset ∧
  State.reset.response = none ∧ State.reset.xtx = none ∧ State.reset.xlen = none

/-- 10_state.md R27: HANDOFF, COMPLETE and DELIVER fault where a latch they read holds no value. -/
def Obligations.ReadingAnEmptyLatchFaults : Prop :=
  ∀ s : State, s.port.rst = false →
    (s.ctrl = .issue → s.port.xreqReady = true → s.len = none → step s = .fault (.latchNoValue .len)) ∧
    (∀ n i, s.ctrl = .issue → s.port.xreqReady = true → s.len = some n → n.toNat ≤ s.cfg.nMax → i ≤ n.toNat →
      s.txbuf[i]? = some none → step s = .fault (.latchNoValue .txbuf)) ∧
    (s.ctrl = .wait → s.port.xrspValid = true → s.port.xrspErr = false → s.len = none →
      step s = .fault (.latchNoValue .len)) ∧
    (∀ n, s.ctrl = .wait → s.port.xrspValid = true → s.port.xrspErr = false → s.len = some n →
      n.toNat ≤ s.cfg.nMax → s.inEn = none → step s = .fault (.latchNoValue .inEn)) ∧
    (s.ctrl = .resp → s.port.rspReady = true → s.rsp = none → step s = .fault (.latchNoValue .response))

/-- 10_state.md R23: no transition but the table's, each with its condition; where none is enabled every register keeps
its value. -/
def Obligations.OnlyTheTableTransitions : Prop :=
  ∀ s t : State, step s = .next t →
    (s.port.rst = true ∧ t.ctrl = .idle) ∨
    (s.port.rst = false ∧
      ((s.ctrl = .idle ∧ s.port.reqValid = true ∧ checkReq s.cfg s.port.req = none ∧ t.ctrl = .issue) ∨
       (s.ctrl = .idle ∧ s.port.reqValid = true ∧ checkReq s.cfg s.port.req ≠ none ∧ t.ctrl = .resp) ∨
       (s.ctrl = .issue ∧ s.port.xreqReady = true ∧ t.ctrl = .wait) ∨
       (s.ctrl = .wait ∧ s.port.xrspValid = true ∧ t.ctrl = .resp) ∨
       (s.ctrl = .resp ∧ s.port.rspReady = true ∧ t.ctrl = .idle) ∨
       (SameRegisters s t ∧ SameObservation s t ∧
         (s.ctrl = .idle → s.port.reqValid = false) ∧ (s.ctrl = .issue → s.port.xreqReady = false) ∧
         (s.ctrl = .wait → s.port.xrspValid = false) ∧ (s.ctrl = .resp → s.port.rspReady = false))))

/-- 20_memory.md R58: a frame reaches the SIL only in HANDOFF, one at a time, exactly the frame offered, and none that
was handed over is changed or dropped; likewise a response is taken only in DELIVER. -/
def Obligations.TrafficGrowsByWholeRecords : Prop :=
  ∀ s t : State, step s = .next t →
    ((t.sent = s.sent ∧ ¬ (s.ctrl = .issue ∧ t.ctrl = .wait)) ∨
      (s.ctrl = .issue ∧ t.ctrl = .wait ∧ s.port.rst = false ∧
        ∃ frame, s.xtx = some frame ∧ t.sent = s.sent ++ [frame])) ∧
    ((t.taken = s.taken ∧ ¬ (s.ctrl = .resp ∧ t.ctrl = .idle ∧ s.port.rst = false)) ∨
      (s.ctrl = .resp ∧ t.ctrl = .idle ∧ s.port.rst = false ∧
        ∃ q, s.response = some q ∧ t.taken = s.taken ++ [q]))

/-- 60_exceptions.md R199: while the SIL does not take the frame (ISSUE) or does not answer (WAIT), and RST stays low,
any number of steps leave the CPED where it is, with the request port not ready and no response. -/
def Obligations.SilentSilHangsTheCped : Prop :=
  ∀ (k : Nat) (s : State), k ≤ s.env.length + 1 →
    (∀ e ∈ (s.port :: s.env).take k, e.rst = false) →
    ((s.ctrl = .issue ∧ ∀ e ∈ (s.port :: s.env).take k, e.xreqReady = false) ∨
      (s.ctrl = .wait ∧ ∀ e ∈ (s.port :: s.env).take k, e.xrspValid = false)) →
    ∃ t, Host.Core.run core k s = .next t ∧ SameRegisters s t ∧ SameObservation s t ∧
      t.reqReady = false ∧ t.rspValid = false

/-- The requester's duty of 70_reset_and_hazards.md R232 as the model's environment keeps it (assumption 3): a request that is offered and does not pass
stays on the port unchanged, unless RST comes; one that passes may be replaced at once. -/
def Obligations.OfferedRequestIsHeld : Prop :=
  ∀ s t : State, step s = .next t → s.port.rst = false → s.port.reqValid = true →
    (s.ctrl ≠ .idle → t.port.rst = false →
      t.port.reqValid = true ∧ t.port.req = s.port.req ∧ t.port.outData = s.port.outData) ∧
    (s.ctrl = .idle → ∀ d rest, s.env = d :: rest → t.port = d)

/-- 10_state.md R38: RSP_VALID is high exactly in RESP, and the response does not change while it stays high. -/
def Obligations.ResponseIsHeld : Prop :=
  (∀ s : State, s.rspValid = true ↔ s.ctrl = .resp) ∧
  ∀ s t : State, step s = .next t → s.rspValid = true → t.rspValid = true → t.response = s.response

/-- 10_state.md R45: after ACCEPT the step of the CPED does not depend on what the requester drives on REQ and OUT_DATA
(ACCEPT sampled them). -/
def Obligations.RequestIsSampledOnce : Prop :=
  ∀ (s t t' : State) (w : Word) (lanes : Vector Byte Config.lanes) (v : Bool), s.ctrl ≠ .idle →
    step s = .next t →
    step { s with port := { s.port with reqValid := v, req := w, outData := lanes } } = .next t' →
    SameRegisters t t' ∧ SameObservation t t'

/-- From 70_reset_and_hazards.md R234, the half about the next request: two transactions that have ended, whatever they were,
leave the CPED the same, and the next step answers the same registers where the environment drives the same. (That a response
once taken stays as it was taken is TrafficGrowsByWholeRecords.) -/
def Obligations.NothingSurvivesATransaction : Prop :=
  ∀ s s' t t' : State, StateInv s → StateInv s' → s.ctrl = .idle → s'.ctrl = .idle → s'.cfg = s.cfg → s'.port = s.port →
    step s = .next t → step s' = .next t' → SameRegisters t t'

/-! ### The response -/

/-- 30_encoding.md R80: the layout of RSP and the values of its fields, for every response the CPED offers. -/
def Obligations.ResponseWordLayout : Prop :=
  ∀ (s : State) (r : ResponseLatch), StateInv s → s.ctrl = .resp → s.rsp = some r →
    ∃ q, s.response = some q ∧
      q.rsp.extractLsb' 0 8 = r.status ∧ q.rsp.extractLsb' 8 2 = kindBits r.kind ∧
      q.rsp.extractLsb' 10 2 = causeBits r.perr ∧ q.rsp.extractLsb' 12 1 = BitVec.ofBool r.inValid ∧
      q.rsp.extractLsb' 13 6 = r.inLen ∧ q.rsp.extractLsb' 19 13 = 0 ∧
      q.inData = r.inBytes ∧ q.errCode = r.errCode ∧
      q.rsp.extractLsb' 8 2 ≠ 0b11 ∧
      (q.rsp.extractLsb' 8 2 ≠ 0b00 → q.rsp.extractLsb' 0 8 = 0x00 ∧ q.rsp.extractLsb' 12 1 = 0) ∧
      (q.rsp.extractLsb' 10 2 ≠ 0b00 ↔ q.rsp.extractLsb' 8 2 = 0b10) ∧
      (q.rsp.extractLsb' 8 2 = 0b00 → s.inEn = some r.inValid) ∧
      (q.rsp.extractLsb' 12 1 = 1 → s.len = some r.inLen) ∧
      (q.rsp.extractLsb' 12 1 = 0 → q.rsp.extractLsb' 13 6 = 0) ∧
      (∀ (i : Nat) (h : i < Config.lanes), (q.rsp.extractLsb' 13 6).toNat ≤ i → q.inData[i] = 0x00) ∧
      (q.rsp.extractLsb' 8 2 ≠ 0b01 → q.errCode = 0)

/-- The response words of the failures (95_test_vectors.md L2.6, from 30_encoding.md R80 and 60_exceptions.md R194). -/
def Obligations.FailureResponseWords : Prop :=
  rspWord (precondLatch .reservedOp) = 0x00000600 ∧ rspWord (precondLatch .operandRange) = 0x00000A00 ∧
  rspWord (precondLatch .lengthRange) = 0x00000E00 ∧
  ∀ code, rspWord (busErrLatch code) = 0x00000100 ∧ (busErrLatch code).errCode = code

/-! ### The whole machine -/

/-- `StateInv` holds at reset: every latch holds no value (70_reset_and_hazards.md R220, R221), and the parameters State.reset
carries meet the constraints of 00_scope.md R7. That these are the default column is the model's choice (assumption 2), and so
are the defaults of the seven opcodes the source does not give (assumption 5). -/
def Obligations.InvariantAtReset : Prop := StateInv State.reset

/-- From every state that meets `StateInv`, a step answers a next state that meets it: no latch is read while it holds no
value, each register holds a value exactly where 10_state.md R22 to R31 say, and the parameters still meet 00_scope.md R7. -/
def Obligations.StepNeverStopsAndKeepsTheInvariant : Prop :=
  ∀ s : State, StateInv s → ∃ t, step s = .next t ∧ StateInv t

/-- 60_exceptions.md R190 on the CPED's side: where ACCEPT can take place, it ends in ISSUE or RESP for every instruction.
Outside IDLE or with RST high ACCEPT is no step of the spec; that exec answers a next state there too, so that it never stops
the machine, is the model's choice of what exec means there (assumption 9). -/
def Obligations.EveryRequestHasANextState : Prop :=
  ∀ (i : Instr) (s : State), ∃ t, exec i s = .next t ∧ (s.acceptReady = true → t.ctrl = .issue ∨ t.ctrl = .resp)

/-- 41_transaction_framer.md R141 and 20_memory.md R64: a program of requests, served by the environment with any
waiting, is one transaction after the other. The SIL gets exactly the frames of the accepted requests, the requester
exactly the response of each request, both in the program's order, and the CPED ends in IDLE with nothing kept. So every
accepted request makes exactly one exchange, of length LEN + 1, and a rejected one none (20_memory.md R51). That the program
is a scenario of the environment, and that the run ends with the rest of it still to come, are the model's environment
(assumptions 3 and 7). -/
def Obligations.ProgramsRunAsSequencesOfTransact : Prop :=
  ∀ (program : List (Request × SilResult)) (es rest : List Config.Inputs) (s : State), s.cfg.admissible = true →
    ServesAll s.cfg rest program es → s.port :: s.env = es ++ rest → rest ≠ [] → s.ctrl = .idle → LatchesEmpty s →
    ∃ t, Host.Core.run core es.length s = .next t ∧
      t.sent = s.sent ++ program.filterMap (fun x => exchangeOf s.cfg x.1) ∧
      t.taken = s.taken ++ program.map (fun x => responseOf (transact s.cfg x.1 x.2)) ∧
      t.ctrl = .idle ∧ LatchesEmpty t ∧ t.port :: t.env = rest ∧
      ∀ x ∈ program, (exchangeOf s.cfg x.1 = none ↔ checkReq s.cfg x.1.req ≠ none) ∧
        ∀ frame, exchangeOf s.cfg x.1 = some frame → frame.length = (paramsReq s.cfg.opc x.1.req).n.toNat + 1

/-- 00_scope.md R7, 70_reset_and_hazards.md R226: the parameters are no state of the run. No instruction and no step changes
them. -/
def Obligations.NoStepChangesTheParameters : Prop :=
  (∀ s t : State, step s = .next t → t.cfg = s.cfg) ∧
  ∀ (i : Instr) (s t : State), exec i s = .next t → t.cfg = s.cfg

/-! ### The request syntax -/

/-- 30_encoding.md R89: the request each form of call spells, field by field with the others 0 and the listed bytes on
OUT_DATA, for every count LEN can hold; a call with another number of listed bytes spells none. -/
def Obligations.CallsSpellTheirRequests : Prop :=
  (∀ addr n, n < 64 → ∃ q, assemble (.rRegister addr n) = some q ∧ Spells q 0x0 addr n false false []) ∧
  (∀ addr data n, n < 64 → data.length = n →
    ∃ q, assemble (.wRegister addr data n) = some q ∧ Spells q 0x1 addr n false false data) ∧
  (∀ n, n < 64 → ∃ q, assemble (.rRxPayload n) = some q ∧ Spells q 0x2 0 n false false []) ∧
  (∀ data n, n < 64 → data.length = n →
    ∃ q, assemble (.wTxPayload data n) = some q ∧ Spells q 0x3 0 n false false data) ∧
  (∃ q, assemble .flushTx = some q ∧ Spells q 0x4 0 0 false false []) ∧
  (∃ q, assemble .flushRx = some q ∧ Spells q 0x5 0 0 false false []) ∧
  (∃ q, assemble .reuseTxPl = some q ∧ Spells q 0x6 0 0 false false []) ∧
  (∃ q, assemble .rRxPlWid = some q ∧ Spells q 0x7 0 0 false false []) ∧
  (∀ pipe data n, n < 64 → data.length = n →
    ∃ q, assemble (.wAckPayload pipe data n) = some q ∧ Spells q 0x8 pipe n false false data) ∧
  (∀ data n, n < 64 → data.length = n →
    ∃ q, assemble (.wTxPayloadNoack data n) = some q ∧ Spells q 0x9 0 n false false data) ∧
  (∃ q, assemble .nop = some q ∧ Spells q 0xA 0 0 false false []) ∧
  (∀ cmd inbound n, n < 64 →
    ∃ q, assemble (.transceive cmd none inbound n) = some q ∧ Spells q 0xF cmd n false inbound []) ∧
  (∀ cmd data inbound n, n < 64 → data.length = n →
    ∃ q, assemble (.transceive cmd (some data) inbound n) = some q ∧ Spells q 0xF cmd n true inbound data) ∧
  (∀ data n, data.length ≠ n →
    (∀ addr, assemble (.wRegister addr data n) = none) ∧ assemble (.wTxPayload data n) = none ∧
    (∀ pipe, assemble (.wAckPayload pipe data n) = none) ∧ assemble (.wTxPayloadNoack data n) = none ∧
    ∀ cmd inbound, assemble (.transceive cmd (some data) inbound n) = none)

/-- A text of each form of 30_encoding.md R89 and the request it spells (95_test_vectors.md W1, W2, W3 and V5, V20, V24, V30,
V34, V40, V42, V43, V60, V61, V62, V63); a wrong count spells none. The spaces, the number forms and the idle lanes at 0 are
the model's choice (assumption 14). -/
def Obligations.RequestTextsAreRead : Prop :=
  requestOfText "R_REGISTER(0x0A, 5)" = some ⟨0x000050A0, lanesOf []⟩ ∧
  requestOfText "W_REGISTER(CONFIG, [0x0E], 1)" = some ⟨0x00001001, lanesOf [0x0E]⟩ ∧
  requestOfText "R_RX_PAYLOAD(2)" = some ⟨0x00002002, lanesOf []⟩ ∧
  requestOfText "W_TX_PAYLOAD([0x11, 0x22, 0x33], 3)" = some ⟨0x00003003, lanesOf [0x11, 0x22, 0x33]⟩ ∧
  requestOfText "FLUSH_TX()" = some ⟨0x00000004, lanesOf []⟩ ∧
  requestOfText "FLUSH_RX()" = some ⟨0x00000005, lanesOf []⟩ ∧
  requestOfText "REUSE_TX_PL()" = some ⟨0x00000006, lanesOf []⟩ ∧
  requestOfText "R_RX_PL_WID()" = some ⟨0x00000007, lanesOf []⟩ ∧
  requestOfText "W_ACK_PAYLOAD(5, [0xC0, 0xDE], 2)" = some ⟨0x00002058, lanesOf [0xC0, 0xDE]⟩ ∧
  requestOfText "W_TX_PAYLOAD_NOACK([0x01, 0x02], 2)" = some ⟨0x00002009, lanesOf [0x01, 0x02]⟩ ∧
  requestOfText "NOP()" = some ⟨0x0000000A, lanesOf []⟩ ∧
  requestOfText "TRANSCEIVE(0x07, -, in, 1)" = some ⟨0x0008107F, lanesOf []⟩ ∧
  requestOfText "TRANSCEIVE(0x20, [0x0E], -, 1)" = some ⟨0x0004120F, lanesOf [0x0E]⟩ ∧
  requestOfText "TRANSCEIVE(0x61, [0x01, 0x02], in, 2)" = some ⟨0x000C261F, lanesOf [0x01, 0x02]⟩ ∧
  requestOfText "TRANSCEIVE(0xFF, -, -, 0)" = some ⟨0x00000FFF, lanesOf []⟩ ∧
  requestOfText "W_REGISTER(CONFIG, [0x0E], 2)" = none
end

