-- ==== Sys2Proof/Laws/PerInstr.lean ====
section
/-! SUPPORT. Per-instruction families: facts about each instruction as syntax. `EncodedOp`: the low four bits of an
instruction's request word are its OP value (30_encoding.md R70, R71). -/

namespace Sys2Proof.Laws.EncodedOp

/-- REQ[3:0] of the encoded request is the instruction's OP value. -/
def Statement (i : Instr) : Prop := reqOp (encode i) = i.opNumber

/-- The fields above OP do not reach its bits. -/
theorem reqOp_buildReq (op : BitVec 4) (d : Byte) (l : Len) (o i : Bool) : reqOp (buildReq op d l o i) = op := by
  apply BitVec.eq_of_getLsbD_eq
  intro k hk
  have h12 : k < 12 := by omega
  have h18 : k < 18 := by omega
  have h19 : k < 19 := by omega
  simp [reqOp, buildReq, hk, h12, h18, h19, show k < 32 by omega]

theorem rRegister (addr : Byte) (n : Len) : Statement (.rRegister addr n) := reqOp_buildReq _ _ _ _ _
theorem wRegister (addr : Byte) (n : Len) : Statement (.wRegister addr n) := reqOp_buildReq _ _ _ _ _
theorem rRxPayload (n : Len) : Statement (.rRxPayload n) := reqOp_buildReq _ _ _ _ _
theorem wTxPayload (n : Len) : Statement (.wTxPayload n) := reqOp_buildReq _ _ _ _ _
theorem flushTx : Statement .flushTx := reqOp_buildReq _ _ _ _ _
theorem flushRx : Statement .flushRx := reqOp_buildReq _ _ _ _ _
theorem reuseTxPl : Statement .reuseTxPl := reqOp_buildReq _ _ _ _ _
theorem rRxPlWid : Statement .rRxPlWid := reqOp_buildReq _ _ _ _ _
theorem wAckPayload (pipe : Byte) (n : Len) : Statement (.wAckPayload pipe n) := reqOp_buildReq _ _ _ _ _
theorem wTxPayloadNoack (n : Len) : Statement (.wTxPayloadNoack n) := reqOp_buildReq _ _ _ _ _
theorem nop : Statement .nop := reqOp_buildReq _ _ _ _ _
theorem reservedB : Statement .reservedB := reqOp_buildReq _ _ _ _ _
theorem reservedC : Statement .reservedC := reqOp_buildReq _ _ _ _ _
theorem reservedD : Statement .reservedD := reqOp_buildReq _ _ _ _ _
theorem reservedE : Statement .reservedE := reqOp_buildReq _ _ _ _ _
theorem transceive (cmd : Byte) (n : Len) (oe ie : Bool) : Statement (.transceive cmd n oe ie) :=
  reqOp_buildReq _ _ _ _ _

end Sys2Proof.Laws.EncodedOp
end

