-- ==== Sys2Proof/Laws/Decode.lean ====
section
/-! SUPPORT. The decoder by the value of OP: one case per row of 30_encoding.md R71. -/

namespace Sys2Proof

/-- Bit `k` of OP is bit `k` of the word. -/
theorem getLsbD_reqOp (w : Word) (k : Nat) (hk : k < 4) : (reqOp w).getLsbD k = w.getLsbD k := by
  simp [reqOp, hk]

/-- Four bits are their value. -/
theorem bitVec4_eq_bits : ∀ x : BitVec 4,
    x = BitVec.ofBool (x.getLsbD 3) ++ BitVec.ofBool (x.getLsbD 2) ++ BitVec.ofBool (x.getLsbD 1)
      ++ BitVec.ofBool (x.getLsbD 0) := by
  decide

/-- The instruction of a word, by the value of OP. -/
theorem decodeWord_cases (w : Word) :
    (reqOp w = 0x0 ∧ decodeWord w = .rRegister (reqOperand w) (reqLen w)) ∨
    (reqOp w = 0x1 ∧ decodeWord w = .wRegister (reqOperand w) (reqLen w)) ∨
    (reqOp w = 0x2 ∧ decodeWord w = .rRxPayload (reqLen w)) ∨
    (reqOp w = 0x3 ∧ decodeWord w = .wTxPayload (reqLen w)) ∨
    (reqOp w = 0x4 ∧ decodeWord w = .flushTx) ∨
    (reqOp w = 0x5 ∧ decodeWord w = .flushRx) ∨
    (reqOp w = 0x6 ∧ decodeWord w = .reuseTxPl) ∨
    (reqOp w = 0x7 ∧ decodeWord w = .rRxPlWid) ∨
    (reqOp w = 0x8 ∧ decodeWord w = .wAckPayload (reqOperand w) (reqLen w)) ∨
    (reqOp w = 0x9 ∧ decodeWord w = .wTxPayloadNoack (reqLen w)) ∨
    (reqOp w = 0xA ∧ decodeWord w = .nop) ∨
    (reqOp w = 0xB ∧ decodeWord w = .reservedB) ∨
    (reqOp w = 0xC ∧ decodeWord w = .reservedC) ∨
    (reqOp w = 0xD ∧ decodeWord w = .reservedD) ∨
    (reqOp w = 0xE ∧ decodeWord w = .reservedE) ∨
    (reqOp w = 0xF ∧ decodeWord w = .transceive (reqOperand w) (reqLen w) (reqOutEn w) (reqInEn w)) := by
  have bits := bitVec4_eq_bits (reqOp w)
  simp only [getLsbD_reqOp w 3 (by omega), getLsbD_reqOp w 2 (by omega), getLsbD_reqOp w 1 (by omega),
    getLsbD_reqOp w 0 (by omega)] at bits
  rcases h3 : w.getLsbD 3 with _ | _ <;> rcases h2 : w.getLsbD 2 with _ | _ <;>
    rcases h1 : w.getLsbD 1 with _ | _ <;> rcases h0 : w.getLsbD 0 with _ | _ <;>
    simp only [h3, h2, h1, h0] at bits <;> simp only [decodeWord, h3, h2, h1, h0] <;> simp [bits]

/-- The other fields of a word built from its fields. -/
theorem reqOperand_buildReq (op : BitVec 4) (d : Byte) (l : Len) (o i : Bool) : reqOperand (buildReq op d l o i) = d := by
  apply BitVec.eq_of_getLsbD_eq
  intro k hk
  simp [reqOperand, buildReq, hk, show 4 + k < 32 by omega, show 4 + k < 12 by omega, show 4 + k < 18 by omega,
    show 4 + k < 19 by omega]

theorem reqLen_buildReq (op : BitVec 4) (d : Byte) (l : Len) (o i : Bool) : reqLen (buildReq op d l o i) = l := by
  apply BitVec.eq_of_getLsbD_eq
  intro k hk
  simp [reqLen, buildReq, hk, show 12 + k < 32 by omega, show 12 + k < 18 by omega, show 12 + k < 19 by omega,
    BitVec.getLsbD_of_ge _ _ (show 8 ≤ 12 + k - 4 by omega), BitVec.getLsbD_of_ge op _ (show 4 ≤ 12 + k by omega)]

theorem reqOutEn_buildReq (op : BitVec 4) (d : Byte) (l : Len) (o i : Bool) : reqOutEn (buildReq op d l o i) = o := by
  simp [reqOutEn, buildReq]

theorem reqInEn_buildReq (op : BitVec 4) (d : Byte) (l : Len) (o i : Bool) : reqInEn (buildReq op d l o i) = i := by
  simp [reqInEn, buildReq]

end Sys2Proof
end

