-- ==== Sys2Proof/Laws/State.lean ====
section
/-! SUPPORT. One lemma per field per update of State, so that no proof unfolds a record update. -/

namespace Sys2Proof.Machine

@[simp] theorem State.buildFrame_cfg (p : FrameParams) (s : State) : (s.buildFrame p).cfg = s.cfg := rfl
@[simp] theorem State.buildFrame_ctrl (p : FrameParams) (s : State) : (s.buildFrame p).ctrl = .issue := rfl
@[simp] theorem State.buildFrame_cmd (p : FrameParams) (s : State) : (s.buildFrame p).cmd = some p.cmd := rfl
@[simp] theorem State.buildFrame_len (p : FrameParams) (s : State) : (s.buildFrame p).len = some p.n := rfl
@[simp] theorem State.buildFrame_inEn (p : FrameParams) (s : State) : (s.buildFrame p).inEn = some p.ie := rfl
@[simp] theorem State.buildFrame_txbuf (p : FrameParams) (s : State) : (s.buildFrame p).txbuf = loadTx s.txbuf s.port.outData p := rfl
@[simp] theorem State.buildFrame_rxbuf (p : FrameParams) (s : State) : (s.buildFrame p).rxbuf = s.rxbuf := rfl
@[simp] theorem State.buildFrame_rsp (p : FrameParams) (s : State) : (s.buildFrame p).rsp = s.rsp := rfl
@[simp] theorem State.buildFrame_port (p : FrameParams) (s : State) : (s.buildFrame p).port = s.port := rfl
@[simp] theorem State.buildFrame_env (p : FrameParams) (s : State) : (s.buildFrame p).env = s.env := rfl
@[simp] theorem State.buildFrame_draws (p : FrameParams) (s : State) : (s.buildFrame p).draws = s.draws := rfl
@[simp] theorem State.buildFrame_sent (p : FrameParams) (s : State) : (s.buildFrame p).sent = s.sent := rfl
@[simp] theorem State.buildFrame_taken (p : FrameParams) (s : State) : (s.buildFrame p).taken = s.taken := rfl

@[simp] theorem State.precondFail_cfg (c : Cause) (s : State) : (s.precondFail c).cfg = s.cfg := rfl
@[simp] theorem State.precondFail_ctrl (c : Cause) (s : State) : (s.precondFail c).ctrl = .resp := rfl
@[simp] theorem State.precondFail_cmd (c : Cause) (s : State) : (s.precondFail c).cmd = s.cmd := rfl
@[simp] theorem State.precondFail_len (c : Cause) (s : State) : (s.precondFail c).len = s.len := rfl
@[simp] theorem State.precondFail_inEn (c : Cause) (s : State) : (s.precondFail c).inEn = s.inEn := rfl
@[simp] theorem State.precondFail_txbuf (c : Cause) (s : State) : (s.precondFail c).txbuf = s.txbuf := rfl
@[simp] theorem State.precondFail_rxbuf (c : Cause) (s : State) : (s.precondFail c).rxbuf = s.rxbuf := rfl
@[simp] theorem State.precondFail_rsp (c : Cause) (s : State) : (s.precondFail c).rsp = some (precondLatch c) := rfl
@[simp] theorem State.precondFail_port (c : Cause) (s : State) : (s.precondFail c).port = s.port := rfl
@[simp] theorem State.precondFail_env (c : Cause) (s : State) : (s.precondFail c).env = s.env := rfl
@[simp] theorem State.precondFail_draws (c : Cause) (s : State) : (s.precondFail c).draws = s.draws := rfl
@[simp] theorem State.precondFail_sent (c : Cause) (s : State) : (s.precondFail c).sent = s.sent := rfl
@[simp] theorem State.precondFail_taken (c : Cause) (s : State) : (s.precondFail c).taken = s.taken := rfl

@[simp] theorem State.busError_cfg (code : BitVec Config.errWidth) (s : State) : (s.busError code).cfg = s.cfg := rfl
@[simp] theorem State.busError_ctrl (code : BitVec Config.errWidth) (s : State) : (s.busError code).ctrl = .resp := rfl
@[simp] theorem State.busError_cmd (code : BitVec Config.errWidth) (s : State) : (s.busError code).cmd = s.cmd := rfl
@[simp] theorem State.busError_len (code : BitVec Config.errWidth) (s : State) : (s.busError code).len = s.len := rfl
@[simp] theorem State.busError_inEn (code : BitVec Config.errWidth) (s : State) : (s.busError code).inEn = s.inEn := rfl
@[simp] theorem State.busError_txbuf (code : BitVec Config.errWidth) (s : State) : (s.busError code).txbuf = s.txbuf := rfl
@[simp] theorem State.busError_rxbuf (code : BitVec Config.errWidth) (s : State) : (s.busError code).rxbuf = s.rxbuf := rfl
@[simp] theorem State.busError_rsp (code : BitVec Config.errWidth) (s : State) : (s.busError code).rsp = some (busErrLatch code) := rfl
@[simp] theorem State.busError_port (code : BitVec Config.errWidth) (s : State) : (s.busError code).port = s.port := rfl
@[simp] theorem State.busError_env (code : BitVec Config.errWidth) (s : State) : (s.busError code).env = s.env := rfl
@[simp] theorem State.busError_draws (code : BitVec Config.errWidth) (s : State) : (s.busError code).draws = s.draws := rfl
@[simp] theorem State.busError_sent (code : BitVec Config.errWidth) (s : State) : (s.busError code).sent = s.sent := rfl
@[simp] theorem State.busError_taken (code : BitVec Config.errWidth) (s : State) : (s.busError code).taken = s.taken := rfl

@[simp] theorem State.toIdle_cfg (s : State) : s.toIdle.cfg = s.cfg := rfl
@[simp] theorem State.toIdle_ctrl (s : State) : s.toIdle.ctrl = .idle := rfl
@[simp] theorem State.toIdle_cmd (s : State) : s.toIdle.cmd = none := rfl
@[simp] theorem State.toIdle_len (s : State) : s.toIdle.len = none := rfl
@[simp] theorem State.toIdle_inEn (s : State) : s.toIdle.inEn = none := rfl
@[simp] theorem State.toIdle_txbuf (s : State) : s.toIdle.txbuf = noBytes := rfl
@[simp] theorem State.toIdle_rxbuf (s : State) : s.toIdle.rxbuf = noBytes := rfl
@[simp] theorem State.toIdle_rsp (s : State) : s.toIdle.rsp = none := rfl
@[simp] theorem State.toIdle_port (s : State) : s.toIdle.port = s.port := rfl
@[simp] theorem State.toIdle_env (s : State) : s.toIdle.env = s.env := rfl
@[simp] theorem State.toIdle_draws (s : State) : s.toIdle.draws = s.draws := rfl
@[simp] theorem State.toIdle_sent (s : State) : s.toIdle.sent = s.sent := rfl
@[simp] theorem State.toIdle_taken (s : State) : s.toIdle.taken = s.taken := rfl

@[simp] theorem State.advance_cfg (b : Bool) (s : State) : (s.advance b).cfg = s.cfg := rfl
@[simp] theorem State.advance_ctrl (b : Bool) (s : State) : (s.advance b).ctrl = s.ctrl := rfl
@[simp] theorem State.advance_cmd (b : Bool) (s : State) : (s.advance b).cmd = s.cmd := rfl
@[simp] theorem State.advance_len (b : Bool) (s : State) : (s.advance b).len = s.len := rfl
@[simp] theorem State.advance_inEn (b : Bool) (s : State) : (s.advance b).inEn = s.inEn := rfl
@[simp] theorem State.advance_txbuf (b : Bool) (s : State) : (s.advance b).txbuf = s.txbuf := rfl
@[simp] theorem State.advance_rxbuf (b : Bool) (s : State) : (s.advance b).rxbuf = s.rxbuf := rfl
@[simp] theorem State.advance_rsp (b : Bool) (s : State) : (s.advance b).rsp = s.rsp := rfl
@[simp] theorem State.advance_port (b : Bool) (s : State) : (s.advance b).port = holdRequest s.port s.nextDrive b := rfl
@[simp] theorem State.advance_env (b : Bool) (s : State) : (s.advance b).env = s.env.tail := rfl
@[simp] theorem State.advance_draws (b : Bool) (s : State) : (s.advance b).draws = if s.env.isEmpty then s.draws + 1 else s.draws := rfl
@[simp] theorem State.advance_sent (b : Bool) (s : State) : (s.advance b).sent = s.sent := rfl
@[simp] theorem State.advance_taken (b : Bool) (s : State) : (s.advance b).taken = s.taken := rfl

/-- RESET leaves what `toIdle` leaves. -/
@[simp] theorem resetStep_eq (s : State) : resetStep s = s.toIdle := rfl

/-- `nextDrive` and `holdRequest` look at the environment only, which no register update touches. -/
@[simp] theorem State.toIdle_nextDrive (s : State) : s.toIdle.nextDrive = s.nextDrive := rfl
@[simp] theorem State.buildFrame_nextDrive (p : FrameParams) (s : State) : (s.buildFrame p).nextDrive = s.nextDrive := rfl
@[simp] theorem State.precondFail_nextDrive (c : Cause) (s : State) : (s.precondFail c).nextDrive = s.nextDrive := rfl
@[simp] theorem State.busError_nextDrive (code : BitVec Config.errWidth) (s : State) :
    (s.busError code).nextDrive = s.nextDrive := rfl

end Sys2Proof.Machine
end

