-- ==== Sys2Proof/Laws/Ops.lean ====
section
/-! SUPPORT. What each shared operation can do, said once: the frame buffers, the checks, ACCEPT, HANDOFF, COMPLETE and
DELIVER. -/

namespace Sys2Proof.Machine

/-! ### Continuations -/

@[simp] theorem onNext_next (s : State) (f : State → Result) : onNext (.next s) f = f s := rfl
@[simp] theorem onNext_fault (r : Fault) (f : State → Result) : onNext (.fault r) f = .fault r := rfl
@[simp] theorem onNext_refused (r : Refusal) (f : State → Result) : onNext (.refused r) f = .refused r := rfl
@[simp] theorem withValue_some {α : Type} (l : Latch) (a : α) (f : α → Result) : withValue l (some a) f = f a := rfl
@[simp] theorem withValue_none {α : Type} (l : Latch) (f : α → Result) :
    withValue l none f = .fault (.latchNoValue l) := rfl

/-- Continuations nest to the right. -/
theorem onNext_assoc (o : Result) (f g : State → Result) :
    onNext (onNext o f) g = onNext o fun s => onNext (f s) g := by
  cases o <;> rfl

/-- A next state comes only from a next state. -/
theorem onNext_eq_next {o : Result} {f : State → Result} {t : State} (h : onNext o f = .next t) :
    ∃ s, o = .next s ∧ f s = .next t := by
  cases o with
  | next s => exact ⟨s, rfl, h⟩
  | fault r => cases h
  | refused r => cases h

/-- A latch read that answers a next state found a value. -/
theorem withValue_eq_next {α : Type} {l : Latch} {v : Option α} {f : α → Result} {t : State}
    (h : withValue l v f = .next t) : ∃ a, v = some a ∧ f a = .next t := by
  cases v with
  | none => cases h
  | some a => exact ⟨a, rfl, h⟩

/-! ### The frame buffers -/

@[simp] theorem getElem_noBytes (i : Nat) (h : i < Config.lanes + 1) : noBytes[i] = none := by simp [noBytes]

/-- What each position of TXBUF holds after a frame is loaded. -/
theorem getElem_loadTx (buf : Vector (Option Byte) (Config.lanes + 1)) (out : Vector Byte Config.lanes) (p : FrameParams)
    (i : Nat) (h : i < Config.lanes + 1) :
    (loadTx buf out p)[i] =
      if h0 : i = 0 then some p.cmd
      else if i ≤ p.n.toNat then some (if p.oe then out[i - 1] else fill)
      else buf[i] := by
  simp [loadTx, payloadByte]

/-- What each position of RXBUF holds after a result is loaded. -/
theorem getElem_loadRx (buf : Vector (Option Byte) (Config.lanes + 1)) (xrx : Vector Byte (Config.lanes + 1)) (n : Len)
    (i : Nat) (h : i < Config.lanes + 1) :
    (loadRx buf xrx n)[i] = if i ≤ n.toNat then some xrx[i] else buf[i] := by
  simp [loadRx]

/-- A six-bit length fits the positions a state can hold. -/
theorem len_le_lanes (n : Len) : n.toNat ≤ Config.lanes := by
  have := n.isLt
  show n.toNat ≤ 63
  omega

/-- Reading a list of values succeeds exactly on a list of present values. -/
theorem allValues_eq_some (l : List (Option Byte)) (bs : List Byte) : allValues l = some bs ↔ l = bs.map some := by
  induction l generalizing bs with
  | nil => cases bs <;> simp [allValues]
  | cons a l ih =>
    cases a with
    | none => cases bs <;> simp [allValues]
    | some b =>
      cases bs with
      | nil => simp [allValues]
      | cons c bs => simp [allValues, ih, and_comm]

/-- The bytes at positions 0..n are read as `bs` exactly when there are n + 1 of them, each a value. -/
theorem readBytes_eq_some (buf : Vector (Option Byte) (Config.lanes + 1)) (n : Nat) (hn : n ≤ Config.lanes) (bs : List Byte) :
    readBytes buf n = some bs ↔
      bs.length = n + 1 ∧ ∀ (i : Nat) (h : i < Config.lanes + 1), i ≤ n → buf[i] = bs[i]? := by
  unfold readBytes
  rw [allValues_eq_some]
  constructor
  · intro h
    have hlen : bs.length = n + 1 := by
      have := congrArg List.length h
      simp at this
      omega
    refine ⟨hlen, fun i hi hin => ?_⟩
    have := congrArg (fun l => l[i]?) h
    simp [show i < n + 1 by omega, hi] at this
    rw [List.getElem?_eq_getElem (by omega)] at this
    rw [List.getElem?_eq_getElem (by omega)]
    exact (by simpa using this : some bs[i] = buf[i]).symm
  · rintro ⟨hlen, h⟩
    apply List.ext_getElem?
    intro i
    by_cases hi : i < n + 1
    · have hb := h i (by omega) (by omega)
      simp [hi, show i < Config.lanes + 1 by omega]
      rw [hb, List.getElem?_eq_getElem (by omega)]
      simp
    · simp [hi, hlen]
      omega

/-- A loaded result reads back as the received bytes. -/
theorem readBytes_loadRx (buf : Vector (Option Byte) (Config.lanes + 1)) (xrx : Vector Byte (Config.lanes + 1)) (n : Len) :
    readBytes (loadRx buf xrx n) n.toNat = some (xrx.toList.take (n.toNat + 1)) := by
  have hn : n.toNat ≤ Config.lanes := len_le_lanes n
  rw [readBytes_eq_some _ _ hn]
  constructor
  · simp; omega
  · intro i h hin
    simp [getElem_loadRx, hin, h, show i < n.toNat + 1 by omega]

/-! ### The checks -/

@[simp] theorem firstFailure_nil : firstFailure [] = none := rfl
@[simp] theorem firstFailure_none (l : List (Option Cause)) : firstFailure (none :: l) = firstFailure l := rfl
@[simp] theorem firstFailure_some (c : Cause) (l : List (Option Cause)) : firstFailure (some c :: l) = some c := rfl

/-- No failure exactly where every check passes. -/
theorem firstFailure_eq_none (l : List (Option Cause)) : firstFailure l = none ↔ ∀ c ∈ l, c = none := by
  induction l with
  | nil => simp
  | cons a l ih => cases a <;> simp [ih]

/-- The checks pass exactly inside their ranges. -/
theorem checkRegAddr_eq_none (addr : Byte) : checkRegAddr addr = none ↔ addr.toNat ≤ Config.regAddrMax := by
  unfold checkRegAddr
  split <;> simp <;> omega

theorem checkPipe_eq_none (c : Config.Params) (pipe : Byte) : checkPipe c pipe = none ↔ pipe.toNat ≤ c.pipeMax := by
  unfold checkPipe
  split <;> simp <;> omega

theorem checkLen_eq_none (c : Config.Params) (n : Len) : checkLen c n = none ↔ n.toNat ≤ c.nMax := by
  unfold checkLen
  split <;> simp <;> omega

/-- R7's constraint on N_MAX. -/
theorem one_le_nMax {c : Config.Params} (h : c.admissible = true) : 1 ≤ c.nMax := by
  simp [Config.Params.admissible] at h
  exact h.1.1.1

/-! ### ACCEPT -/

/-- ACCEPT can take place exactly in IDLE with RST low. -/
theorem State.acceptReady_iff (s : State) : s.acceptReady = true ↔ s.port.rst = false ∧ s.ctrl = .idle := by
  simp [State.acceptReady, State.reqReady]

/-- ACCEPT of a request whose checks pass. -/
theorem accept_pass {checks : List (Option Cause)} {p : FrameParams} {s : State} (hs : s.acceptReady = true)
    (hc : firstFailure checks = none) : accept checks p s = .next (s.buildFrame p) := by
  simp [accept, hs, hc]

/-- ACCEPT of a request that fails a check. -/
theorem accept_fail {checks : List (Option Cause)} {p : FrameParams} {s : State} {c : Cause} (hs : s.acceptReady = true)
    (hc : firstFailure checks = some c) : accept checks p s = .next (s.precondFail c) := by
  simp [accept, hs, hc]

/-- ACCEPT that cannot take place changes nothing. -/
theorem accept_waits {checks : List (Option Cause)} {p : FrameParams} {s : State} (hs : s.acceptReady = false) :
    accept checks p s = .next s := by
  simp [accept, hs]

/-- Everything ACCEPT can do. -/
theorem accept_cases (checks : List (Option Cause)) (p : FrameParams) (s : State) :
    (s.acceptReady = false ∧ accept checks p s = .next s) ∨
    (s.acceptReady = true ∧ firstFailure checks = none ∧ accept checks p s = .next (s.buildFrame p)) ∨
    (∃ c, s.acceptReady = true ∧ firstFailure checks = some c ∧ accept checks p s = .next (s.precondFail c)) := by
  rcases hs : s.acceptReady with _ | _
  · exact .inl ⟨rfl, accept_waits hs⟩
  · rcases hc : firstFailure checks with _ | c
    · exact .inr (.inl ⟨rfl, rfl, accept_pass hs hc⟩)
    · exact .inr (.inr ⟨c, rfl, rfl, accept_fail hs hc⟩)

/-- Everything ACCEPT of a reserved OP value can do. -/
theorem acceptReserved_cases (s : State) :
    (s.acceptReady = false ∧ acceptReserved s = .next s) ∨
    (s.acceptReady = true ∧ acceptReserved s = .next (s.precondFail .reservedOp)) := by
  rcases hs : s.acceptReady with _ | _ <;> simp [acceptReserved, hs]

/-! ### HANDOFF, COMPLETE, DELIVER -/

/-- Everything HANDOFF can do when it answers a next state. -/
theorem handoff_next {s t : State} (h : handoff s = .next t) :
    ∃ n frame, s.len = some n ∧ n.toNat ≤ s.cfg.nMax ∧ readBytes s.txbuf n.toNat = some frame ∧
      t = { s with sent := s.sent ++ [frame], ctrl := .wait } := by
  obtain ⟨n, hn, h⟩ := withValue_eq_next h
  split at h
  · cases h
  · obtain ⟨frame, hf, h⟩ := withValue_eq_next h
    cases h
    exact ⟨n, frame, hn, by omega, hf, rfl⟩

/-- HANDOFF of a latched frame. -/
theorem handoff_of_frame {s : State} {n : Len} {frame : List Byte} (hl : s.len = some n) (hn : n.toNat ≤ s.cfg.nMax)
    (hf : readBytes s.txbuf n.toNat = some frame) :
    handoff s = .next { s with sent := s.sent ++ [frame], ctrl := .wait } := by
  simp [handoff, hl, hf, show ¬ s.cfg.nMax < n.toNat by omega]

/-- COMPLETE with `ok` of a latched frame: RXBUF and the response latch are written, and the state is RESP. -/
theorem completeOk_of_frame {s : State} {n : Len} {ie : Bool} (xrx : Vector Byte (Config.lanes + 1))
    (hl : s.len = some n) (hn : n.toNat ≤ s.cfg.nMax) (hi : s.inEn = some ie) :
    completeOk xrx s = .next
      { s with
        rxbuf := loadRx s.rxbuf xrx n
        rsp := some (okLatch xrx[0] ((xrx.toList.take (n.toNat + 1)).tail) n ie)
        ctrl := .resp } := by
  have hr := readBytes_loadRx s.rxbuf xrx n
  have hx : xrx.toList.take (n.toNat + 1) = xrx[0] :: (xrx.toList.take (n.toNat + 1)).tail := by
    have h0 : (xrx.toList.take (n.toNat + 1))[0]? = some xrx[0] := by simp
    cases hL : xrx.toList.take (n.toNat + 1) with
    | nil => simp [hL] at h0
    | cons a l => simp [hL] at h0; simp [h0]
  rw [hx] at hr
  simp only [completeOk, hl, hi, withValue_some, if_neg (show ¬ s.cfg.nMax < n.toNat by omega), hr]

/-- Everything COMPLETE with `ok` can do when it answers a next state. -/
theorem completeOk_next {s t : State} {xrx : Vector Byte (Config.lanes + 1)} (h : completeOk xrx s = .next t) :
    ∃ n ie, s.len = some n ∧ n.toNat ≤ s.cfg.nMax ∧ s.inEn = some ie ∧
      t = { s with
        rxbuf := loadRx s.rxbuf xrx n
        rsp := some (okLatch xrx[0] ((xrx.toList.take (n.toNat + 1)).tail) n ie)
        ctrl := .resp } := by
  have h' := h
  obtain ⟨n, hl, h'⟩ := withValue_eq_next h'
  split at h'
  · cases h'
  · obtain ⟨ie, hi, -⟩ := withValue_eq_next h'
    have hn : n.toNat ≤ s.cfg.nMax := by omega
    rw [completeOk_of_frame xrx hl hn hi] at h
    cases h
    exact ⟨n, ie, hl, hn, hi, rfl⟩

/-- Everything COMPLETE can do when it answers a next state. -/
theorem complete_next {s t : State} {r : SilResult} (h : complete r s = .next t) :
    (∃ xrx n ie, r = .ok xrx ∧ s.len = some n ∧ n.toNat ≤ s.cfg.nMax ∧ s.inEn = some ie ∧
      t = { s with
        rxbuf := loadRx s.rxbuf xrx n
        rsp := some (okLatch xrx[0] ((xrx.toList.take (n.toNat + 1)).tail) n ie)
        ctrl := .resp }) ∨
    (∃ code, r = .err code ∧ t = s.busError code) := by
  cases r with
  | ok xrx =>
    have h' : completeOk xrx s = .next t := h
    obtain ⟨n, ie, hl, hn, hi, ht⟩ := completeOk_next h'
    exact .inl ⟨xrx, n, ie, rfl, hl, hn, hi, ht⟩
  | err code =>
    have h' : Host.Outcome.next (s.busError code) = (.next t : Result) := h
    injection h' with h'
    exact .inr ⟨code, rfl, h'.symm⟩

/-- Everything DELIVER can do when it answers a next state. -/
theorem deliver_next {s t : State} (h : deliver s = .next t) :
    ∃ r, s.rsp = some r ∧ t = { s.toIdle with taken := s.taken ++ [responseOf r] } := by
  obtain ⟨r, hr, h⟩ := withValue_eq_next h
  cases h
  exact ⟨r, hr, rfl⟩

/-- Lane `i` of the inbound bytes after COMPLETE with `ok`. -/
theorem getElem_okLatch_inBytes (xrx : Vector Byte (Config.lanes + 1)) (n : Len) (ie : Bool) (i : Nat)
    (h : i < Config.lanes) :
    (okLatch xrx[0] ((xrx.toList.take (n.toNat + 1)).tail) n ie).inBytes[i] =
      if ie = true ∧ i < n.toNat then xrx[i + 1] else 0 := by
  cases ie with
  | false => simp [okLatch, noInBytes]
  | true =>
    by_cases hi : i < n.toNat
    · simp [okLatch, hi, h]
    · simp [okLatch, hi]

/-! ### The input signals HANDOFF, COMPLETE and DELIVER do not look at -/

theorem handoff_port (s : State) (p : Config.Inputs) :
    handoff { s with port := p } = onNext (handoff s) fun t => .next { t with port := p } := by
  simp only [handoff]
  rcases s.len with _ | n
  · rfl
  · simp only [withValue_some]
    split
    · rfl
    · rcases readBytes s.txbuf n.toNat with _ | f <;> rfl

theorem completeOk_port (xrx : Vector Byte (Config.lanes + 1)) (s : State) (p : Config.Inputs) :
    completeOk xrx { s with port := p } = onNext (completeOk xrx s) fun t => .next { t with port := p } := by
  simp only [completeOk]
  rcases s.len with _ | n
  · rfl
  · simp only [withValue_some]
    split
    · rfl
    · rcases s.inEn with _ | ie
      · rfl
      · simp only [withValue_some]
        rcases readBytes (loadRx s.rxbuf xrx n) n.toNat with _ | f
        · rfl
        · rcases f with _ | ⟨a, f⟩ <;> rfl

theorem deliver_port (s : State) (p : Config.Inputs) :
    deliver { s with port := p } = onNext (deliver s) fun t => .next { t with port := p } := by
  simp only [deliver]
  rcases s.rsp with _ | r <;> rfl

/-! ### The environment -/

/-- A step of RST or of an accepted request leaves what the environment drives. -/
theorem holdRequest_passes (now next : Config.Inputs) (h : now.reqValid = false) (b : Bool) :
    holdRequest now next b = next := by
  simp [holdRequest, h]

@[simp] theorem holdRequest_accepted (now next : Config.Inputs) : holdRequest now next true = next := by
  simp [holdRequest]

end Sys2Proof.Machine
end

