-- ==== Sys2Proof/Laws/Step.lean ====
section
/-! SUPPORT. What `exec` and one step can do, said once: every later proof about a step cites these and unfolds
neither. -/

namespace Sys2Proof.Machine

/-! ### Each arm as the shared operation it calls -/

theorem exec_rRegister (addr : Byte) (n : Len) (s : State) : exec (.rRegister addr n) s =
    accept [checkRegAddr addr, checkLen s.cfg n] { cmd := compose s.cfg.opc .rRegister addr, n := n, oe := false, ie := true } s := rfl
theorem exec_wRegister (addr : Byte) (n : Len) (s : State) : exec (.wRegister addr n) s =
    accept [checkRegAddr addr, checkLen s.cfg n] { cmd := compose s.cfg.opc .wRegister addr, n := n, oe := true, ie := false } s := rfl
theorem exec_rRxPayload (n : Len) (s : State) : exec (.rRxPayload n) s =
    accept [checkLen s.cfg n] { cmd := compose s.cfg.opc .rRxPayload 0, n := n, oe := false, ie := true } s := rfl
theorem exec_wTxPayload (n : Len) (s : State) : exec (.wTxPayload n) s =
    accept [checkLen s.cfg n] { cmd := compose s.cfg.opc .wTxPayload 0, n := n, oe := true, ie := false } s := rfl
theorem exec_flushTx (s : State) : exec .flushTx s =
    accept [] { cmd := compose s.cfg.opc .flushTx 0, n := 0, oe := false, ie := false } s := rfl
theorem exec_flushRx (s : State) : exec .flushRx s =
    accept [] { cmd := compose s.cfg.opc .flushRx 0, n := 0, oe := false, ie := false } s := rfl
theorem exec_reuseTxPl (s : State) : exec .reuseTxPl s =
    accept [] { cmd := compose s.cfg.opc .reuseTxPl 0, n := 0, oe := false, ie := false } s := rfl
theorem exec_rRxPlWid (s : State) : exec .rRxPlWid s =
    accept [] { cmd := compose s.cfg.opc .rRxPlWid 0, n := 1, oe := false, ie := true } s := rfl
theorem exec_wAckPayload (pipe : Byte) (n : Len) (s : State) : exec (.wAckPayload pipe n) s =
    accept [checkPipe s.cfg pipe, checkLen s.cfg n] { cmd := compose s.cfg.opc .wAckPayload pipe, n := n, oe := true, ie := false } s := rfl
theorem exec_wTxPayloadNoack (n : Len) (s : State) : exec (.wTxPayloadNoack n) s =
    accept [checkLen s.cfg n] { cmd := compose s.cfg.opc .wTxPayloadNoack 0, n := n, oe := true, ie := false } s := rfl
theorem exec_nop (s : State) : exec .nop s =
    accept [] { cmd := compose s.cfg.opc .nop 0, n := 0, oe := false, ie := false } s := rfl
theorem exec_transceive (cmd : Byte) (n : Len) (oe ie : Bool) (s : State) : exec (.transceive cmd n oe ie) s =
    accept [checkLen s.cfg n] { cmd := cmd, n := n, oe := oe, ie := ie } s := rfl
theorem exec_reservedB (s : State) : exec .reservedB s = acceptReserved s := rfl
theorem exec_reservedC (s : State) : exec .reservedC s = acceptReserved s := rfl
theorem exec_reservedD (s : State) : exec .reservedD s = acceptReserved s := rfl
theorem exec_reservedE (s : State) : exec .reservedE s = acceptReserved s := rfl

/-- The answers ACCEPT can give: wait, build one frame (of a length N_MAX admits, where the parameters meet R7), or reject
with one cause. -/
def AcceptOutcome (s : State) (o : Result) : Prop :=
  (s.acceptReady = false ∧ o = .next s) ∨
  (∃ p, s.acceptReady = true ∧ (s.cfg.admissible = true → p.n.toNat ≤ s.cfg.nMax) ∧ o = .next (s.buildFrame p)) ∨
  (∃ c, s.acceptReady = true ∧ o = .next (s.precondFail c))

theorem accept_outcome (checks : List (Option Cause)) (p : FrameParams) (s : State)
    (hp : firstFailure checks = none → s.cfg.admissible = true → p.n.toNat ≤ s.cfg.nMax) :
    AcceptOutcome s (accept checks p s) := by
  rcases accept_cases checks p s with h | ⟨hs, hc, h⟩ | ⟨c, hs, -, h⟩
  · exact .inl h
  · exact .inr (.inl ⟨p, hs, hp hc, h⟩)
  · exact .inr (.inr ⟨c, hs, h⟩)

theorem accept_checked_outcome (checks : List (Option Cause)) (p : FrameParams) (s : State)
    (hm : checkLen s.cfg p.n ∈ checks) : AcceptOutcome s (accept checks p s) :=
  accept_outcome checks p s fun h _ => (checkLen_eq_none s.cfg p.n).1 ((firstFailure_eq_none checks).1 h _ hm)

theorem accept_fixed_outcome (checks : List (Option Cause)) (p : FrameParams) (s : State)
    (hn : p.n.toNat ≤ 1) : AcceptOutcome s (accept checks p s) :=
  accept_outcome checks p s fun _ h => hn.trans (one_le_nMax h)

theorem acceptReserved_outcome (s : State) : AcceptOutcome s (acceptReserved s) := by
  rcases acceptReserved_cases s with h | h
  · exact .inl h
  · exact .inr (.inr ⟨_, h⟩)

/-- Everything the ACCEPT of any request can do. -/
theorem exec_cases (i : Instr) (s : State) : AcceptOutcome s (exec i s) := by
  cases i with
  | rRegister addr n => rw [exec_rRegister]; exact accept_checked_outcome _ _ s (by simp)
  | wRegister addr n => rw [exec_wRegister]; exact accept_checked_outcome _ _ s (by simp)
  | rRxPayload n => rw [exec_rRxPayload]; exact accept_checked_outcome _ _ s (by simp)
  | wTxPayload n => rw [exec_wTxPayload]; exact accept_checked_outcome _ _ s (by simp)
  | flushTx => rw [exec_flushTx]; exact accept_fixed_outcome _ _ s (by simp)
  | flushRx => rw [exec_flushRx]; exact accept_fixed_outcome _ _ s (by simp)
  | reuseTxPl => rw [exec_reuseTxPl]; exact accept_fixed_outcome _ _ s (by simp)
  | rRxPlWid => rw [exec_rRxPlWid]; exact accept_fixed_outcome _ _ s (by simp)
  | wAckPayload pipe n => rw [exec_wAckPayload]; exact accept_checked_outcome _ _ s (by simp)
  | wTxPayloadNoack n => rw [exec_wTxPayloadNoack]; exact accept_checked_outcome _ _ s (by simp)
  | nop => rw [exec_nop]; exact accept_fixed_outcome _ _ s (by simp)
  | transceive cmd n oe ie => rw [exec_transceive]; exact accept_checked_outcome _ _ s (by simp)
  | reservedB => exact acceptReserved_outcome s
  | reservedC => exact acceptReserved_outcome s
  | reservedD => exact acceptReserved_outcome s
  | reservedE => exact acceptReserved_outcome s

/-! ### What ACCEPT looks at and what it leaves -/

/-- ACCEPT looks at RST and OUT_DATA and at no other input signal. -/
theorem accept_port (checks : List (Option Cause)) (p : FrameParams) (s : State) (port : Config.Inputs)
    (hr : port.rst = s.port.rst) (ho : port.outData = s.port.outData) :
    accept checks p { s with port := port } = onNext (accept checks p s) fun t => .next { t with port := port } := by
  have e : ({ s with port := port } : State).acceptReady = s.acceptReady := by
    simp [State.acceptReady, State.reqReady, hr]
  rcases accept_cases checks p s with ⟨h, h'⟩ | ⟨h, hc, h'⟩ | ⟨c, h, hc, h'⟩ <;> rw [h'] <;> rw [← e] at h
  · rw [accept_waits h]; rfl
  · rw [accept_pass h hc]; simp [State.buildFrame, ho]
  · rw [accept_fail h hc]; rfl

theorem acceptReserved_port (s : State) (port : Config.Inputs) (hr : port.rst = s.port.rst) :
    acceptReserved { s with port := port } = onNext (acceptReserved s) fun t => .next { t with port := port } := by
  have e : ({ s with port := port } : State).acceptReady = s.acceptReady := by
    simp [State.acceptReady, State.reqReady, hr]
  simp only [acceptReserved, e]
  split <;> rfl

theorem exec_port (i : Instr) (s : State) (port : Config.Inputs) (hr : port.rst = s.port.rst)
    (ho : port.outData = s.port.outData) :
    exec i { s with port := port } = onNext (exec i s) fun t => .next { t with port := port } := by
  cases i <;>
    simp only [exec_rRegister, exec_wRegister, exec_rRxPayload, exec_wTxPayload, exec_flushTx, exec_flushRx, exec_reuseTxPl,
      exec_rRxPlWid, exec_wAckPayload, exec_wTxPayloadNoack, exec_nop, exec_reservedB, exec_reservedC, exec_reservedD,
      exec_reservedE, exec_transceive] <;>
    first
    | exact accept_port _ _ s port hr ho
    | exact acceptReserved_port s port hr

/-- ACCEPT touches neither the environment nor the observation. -/
theorem exec_environment {i : Instr} {s t : State} (h : exec i s = .next t) :
    t.port = s.port ∧ t.env = s.env ∧ t.draws = s.draws ∧ t.sent = s.sent ∧ t.taken = s.taken := by
  rcases exec_cases i s with ⟨-, e⟩ | ⟨p, -, -, e⟩ | ⟨c, -, e⟩ <;> rw [e] at h <;> cases h <;>
    exact ⟨rfl, rfl, rfl, rfl, rfl⟩

/-- ACCEPT leaves the parameters. -/
theorem exec_cfg {i : Instr} {s t : State} (h : exec i s = .next t) : t.cfg = s.cfg := by
  rcases exec_cases i s with ⟨-, e⟩ | ⟨p, -, -, e⟩ | ⟨c, -, e⟩ <;> rw [e] at h <;> cases h <;> rfl

/-- The raw request word decides: ACCEPT rejects with Check's cause, or builds the frame of Params' row. -/
theorem exec_decodeWord (w : Word) {s : State} (hs : s.acceptReady = true) :
    exec (decodeWord w) s =
      match checkReq s.cfg w with
      | some c => .next (s.precondFail c)
      | none => .next (s.buildFrame (paramsReq s.cfg.opc w)) := by
  have low5 : ∀ d : Byte, (d.extractLsb' 0 5).setWidth 8 = d &&& 0x1F := by decide
  have low3 : ∀ d : Byte, (d.extractLsb' 0 3).setWidth 8 = d &&& 0x07 := by decide
  rcases decodeWord_cases w with ⟨h, e⟩ | ⟨h, e⟩ | ⟨h, e⟩ | ⟨h, e⟩ | ⟨h, e⟩ | ⟨h, e⟩ | ⟨h, e⟩ | ⟨h, e⟩ | ⟨h, e⟩ |
    ⟨h, e⟩ | ⟨h, e⟩ | ⟨h, e⟩ | ⟨h, e⟩ | ⟨h, e⟩ | ⟨h, e⟩ | ⟨h, e⟩ <;>
    rw [e] <;>
    simp only [exec_rRegister, exec_wRegister, exec_rRxPayload, exec_wTxPayload, exec_flushTx, exec_flushRx, exec_reuseTxPl,
      exec_rRxPlWid, exec_wAckPayload, exec_wTxPayloadNoack, exec_nop, exec_reservedB, exec_reservedC, exec_reservedD,
      exec_reservedE, exec_transceive] <;>
    simp [accept, acceptReserved, hs, checkReq, paramsReq, h, checkRegAddr, checkPipe, checkLen, compose,
      formatOf, low5, low3] <;>
    split_ifs <;> simp_all

/-- A next state of a step, said once: RESET, waiting, or the one transition of the control state, and then the
environment moves on. -/
theorem step_cases {s t : State} (h : step s = .next t) :
    (s.port.rst = true ∧ t = s.toIdle.advance false) ∨
    (s.port.rst = false ∧
      ((s.ctrl = .idle ∧ s.port.reqValid = true ∧
          ∃ u, exec (decodeWord s.port.req) s = .next u ∧ t = u.advance true) ∨
        (s.ctrl = .issue ∧ s.port.xreqReady = true ∧ ∃ u, handoff s = .next u ∧ t = u.advance false) ∨
        (s.ctrl = .wait ∧ s.port.xrspValid = true ∧
          ∃ u, complete (silResult s.port) s = .next u ∧ t = u.advance false) ∨
        (s.ctrl = .resp ∧ s.port.rspReady = true ∧ ∃ u, deliver s = .next u ∧ t = u.advance false) ∨
        (((s.ctrl = .idle ∧ s.port.reqValid = false) ∨ (s.ctrl = .issue ∧ s.port.xreqReady = false) ∨
            (s.ctrl = .wait ∧ s.port.xrspValid = false) ∨ (s.ctrl = .resp ∧ s.port.rspReady = false)) ∧
          t = s.advance false))) := by
  rcases hr : s.port.rst with _ | _
  · refine .inr ⟨rfl, ?_⟩
    rcases hc : s.ctrl with _ | _ | _ | _
    · rcases hv : s.port.reqValid with _ | _
      · simp [step, hr, hc, hv] at h
        simp [h]
      · simp only [step, hr, hc, hv] at h
        obtain ⟨u, hu, h⟩ := onNext_eq_next h
        cases h
        exact .inl ⟨rfl, rfl, u, hu, rfl⟩
    · rcases hv : s.port.xreqReady with _ | _
      · simp [step, hr, hc, hv] at h
        simp [h]
      · simp only [step, hr, hc, hv] at h
        obtain ⟨u, hu, h⟩ := onNext_eq_next h
        cases h
        exact .inr (.inl ⟨rfl, rfl, u, hu, rfl⟩)
    · rcases hv : s.port.xrspValid with _ | _
      · simp [step, hr, hc, hv] at h
        simp [h]
      · simp only [step, hr, hc, hv] at h
        obtain ⟨u, hu, h⟩ := onNext_eq_next h
        cases h
        exact .inr (.inr (.inl ⟨rfl, rfl, u, hu, rfl⟩))
    · rcases hv : s.port.rspReady with _ | _
      · simp [step, hr, hc, hv] at h
        simp [h]
      · simp only [step, hr, hc, hv] at h
        obtain ⟨u, hu, h⟩ := onNext_eq_next h
        cases h
        exact .inr (.inr (.inr (.inl ⟨rfl, rfl, u, hu, rfl⟩)))
  · simp [step, hr] at h
    exact .inl ⟨rfl, h.symm⟩

/-- The steps of each control state, for a state in which RST is low. -/
theorem step_idle {s : State} (hr : s.port.rst = false) (hc : s.ctrl = .idle) :
    step s = if s.port.reqValid then onNext (exec (decodeWord s.port.req) s) fun t => .next (t.advance true)
      else .next (s.advance false) := by
  simp [step, hr, hc]

theorem step_issue {s : State} (hr : s.port.rst = false) (hc : s.ctrl = .issue) :
    step s = if s.port.xreqReady then onNext (handoff s) fun t => .next (t.advance false)
      else .next (s.advance false) := by
  simp [step, hr, hc]

theorem step_wait {s : State} (hr : s.port.rst = false) (hc : s.ctrl = .wait) :
    step s = if s.port.xrspValid then onNext (complete (silResult s.port) s) fun t => .next (t.advance false)
      else .next (s.advance false) := by
  simp [step, hr, hc]

theorem step_resp {s : State} (hr : s.port.rst = false) (hc : s.ctrl = .resp) :
    step s = if s.port.rspReady then onNext (deliver s) fun t => .next (t.advance false)
      else .next (s.advance false) := by
  simp [step, hr, hc]

theorem step_reset {s : State} (hr : s.port.rst = true) : step s = .next (s.toIdle.advance false) := by
  simp [step, hr]

/-! ### Runs of several steps -/

theorem run_zero (s : State) : Host.Core.run core 0 s = .next s := rfl

/-- A run goes on from the next state of its first step. -/
theorem run_step {k : Nat} {s t : State} (h : step s = .next t) :
    Host.Core.run core (k + 1) s = Host.Core.run core k t := by
  have e : core.step s = .next t := h
  simp only [Host.Core.run, e]

/-- A run of `a + b` steps goes on from the state after the first `a`. -/
theorem run_add (a : Nat) {b : Nat} {s t : State} (h : Host.Core.run core a s = .next t) :
    Host.Core.run core (a + b) s = Host.Core.run core b t := by
  induction a generalizing s with
  | zero => rw [run_zero] at h; cases h; simp
  | succ a ih =>
    cases hs : step s with
    | next u =>
      rw [run_step hs] at h
      rw [show a + 1 + b = (a + b) + 1 by omega, run_step hs]
      exact ih h
    | fault r =>
      have e : core.step s = .fault r := hs
      simp [Host.Core.run, e] at h
    | refused r =>
      have e : core.step s = .refused r := hs
      simp [Host.Core.run, e] at h

end Sys2Proof.Machine
end

