-- ==== Sys2Proof/Tests/Slice0.lean ====
section
/-! SUPPORT. The model's own tests, each on fixed values with the expected result written out from the spec (the encodings of
30_encoding.md R70, R71 and the vectors of 95_test_vectors.md), and a named witness for the hypotheses of every statement of
Certificates/Slice0/Obligations.lean. -/

namespace Sys2Proof.Tests

open Sys2Proof Sys2Proof.Machine Sys2Proof.Safety

/-! ### States to test on -/

/-- IDLE, with the request `w` and its outbound bytes offered. -/
def offering (w : Word) (bytes : List Byte) : State :=
  { State.reset with port := { Config.Inputs.quiet with reqValid := true, req := w, outData := lanesOf bytes } }

/-- The received bytes on XRX. -/
def received (rx : List Byte) : Vector Byte (Config.lanes + 1) :=
  Vector.ofFn fun i : Fin (Config.lanes + 1) => rx.getD i.val 0

/-- The latches of a request whose frame is built, in the control state `c` and with the input signals `p`. -/
def latched (c : Ctrl) (frame : FrameParams) (bytes : List Byte) (p : Config.Inputs) : State :=
  { State.reset with
    ctrl := c
    cmd := some frame.cmd
    len := some frame.n
    inEn := some frame.ie
    txbuf := loadTx noBytes (lanesOf bytes) frame
    port := p }

/-- The SIL's result `ok(rx)` on the SIL port. -/
def okSignals (rx : List Byte) : Config.Inputs := { Config.Inputs.quiet with xrspValid := true, xrx := received rx }

/-- The SIL's result `err` on the SIL port, with code 0. -/
def errSignals : Config.Inputs := { Config.Inputs.quiet with xrspValid := true, xrspErr := true }

/-- RESP, with the response of NOP and status 0x0E offered. -/
def responding (p : Config.Inputs) : State :=
  { latched .resp ⟨0xFF, 0, false, false⟩ [] p with
    rxbuf := loadRx noBytes (received [0x0E]) 0
    rsp := some (okLatch 0x0E [] 0 false) }

/-- The step ends in ISSUE with this frame offered to the SIL and this inbound choice. -/
def issues (o : Result) (frame : List Byte) (ie : Bool) : Bool :=
  match o with
  | .next t => t.ctrl == .issue && t.xtx == some frame && t.xlen == some (BitVec.ofNat 7 frame.length) && t.inEn == some ie
  | .fault _ => false
  | .refused _ => false

/-- The step ends in RESP with this response word and these inbound bytes, and no frame handed over. -/
def responds (o : Result) (rsp : Word) (inBytes : List Byte) : Bool :=
  match o with
  | .next t =>
    t.ctrl == .resp && t.response.map (·.rsp) == some rsp && t.response.map (·.inData) == some (lanesOf inBytes) &&
      t.sent.isEmpty
  | .fault _ => false
  | .refused _ => false

/-! ### The caller contract refuses an ill-formed term of each kind (30_encoding.md R72, R73, R88) -/

theorem test_wellFormed_register_address :
    Instr.wellFormed params (Instr.rRegister 0x1E 1) = false ∧ Instr.wellFormed params (Instr.wRegister 0x20 1) = false ∧
      Instr.wellFormed params (Instr.rRegister 0x1D 1) = true ∧ Instr.wellFormed params (Instr.wRegister 0x1D 0) = true := by decide

theorem test_wellFormed_pipe :
    Instr.wellFormed params (Instr.wAckPayload 6 2) = false ∧ Instr.wellFormed params (Instr.wAckPayload 5 2) = true := by decide

theorem test_wellFormed_length :
    Instr.wellFormed params (Instr.rRegister 0 33) = false ∧ Instr.wellFormed params (Instr.wRegister 0 33) = false ∧
      Instr.wellFormed params (Instr.rRxPayload 33) = false ∧ Instr.wellFormed params (Instr.wTxPayload 63) = false ∧
      Instr.wellFormed params (Instr.wAckPayload 0 33) = false ∧ Instr.wellFormed params (Instr.wTxPayloadNoack 33) = false ∧
      Instr.wellFormed params (Instr.transceive 0 33 true true) = false ∧ Instr.wellFormed params (Instr.transceive 0xFF 32 true true) = true := by
  decide

theorem test_wellFormed_reserved :
    Instr.wellFormed params Instr.reservedB = false ∧ Instr.wellFormed params Instr.reservedC = false ∧ Instr.wellFormed params Instr.reservedD = false ∧
      Instr.wellFormed params Instr.reservedE = false := by decide

/-! ### Decoding, one word per constructor, from 30_encoding.md R70 and R71 (ignored bits set where there are some) -/

/-- Columns: REQ[31:20], IN_EN, OUT_EN, LEN, OPERAND, OP. -/
theorem test_decode_rRegister : decodeWord 0b000000000000_0_0_000101_00001010_0000 = .rRegister 0x0A 5 := by decide
theorem test_decode_wRegister : decodeWord 0b000000000000_0_0_000001_00011101_0001 = .wRegister 0x1D 1 := by decide
theorem test_decode_rRxPayload : decodeWord 0b000000000000_0_0_100000_00000000_0010 = .rRxPayload 32 := by decide
theorem test_decode_wTxPayload : decodeWord 0b000000000000_0_0_000011_00000000_0011 = .wTxPayload 3 := by decide
theorem test_decode_flushTx : decodeWord 0b000000000000_0_0_111111_11111111_0100 = .flushTx := by decide
theorem test_decode_flushRx : decodeWord 0b000000000000_0_0_000000_00000000_0101 = .flushRx := by decide
theorem test_decode_reuseTxPl : decodeWord 0b000000000000_0_0_000000_00000000_0110 = .reuseTxPl := by decide
theorem test_decode_rRxPlWid : decodeWord 0b000000000000_0_0_000101_00000000_0111 = .rRxPlWid := by decide
theorem test_decode_wAckPayload : decodeWord 0b000000000000_0_0_000010_00000101_1000 = .wAckPayload 5 2 := by decide
theorem test_decode_wTxPayloadNoack : decodeWord 0b000000000000_0_0_000010_00000000_1001 = .wTxPayloadNoack 2 := by decide
theorem test_decode_nop : decodeWord 0b111111111111_1_1_111111_11111111_1010 = .nop := by decide
theorem test_decode_reservedB : decodeWord 0b000000000000_0_0_000000_00000000_1011 = .reservedB := by decide
theorem test_decode_reservedC : decodeWord 0b000000000000_0_0_000000_00000000_1100 = .reservedC := by decide
theorem test_decode_reservedD : decodeWord 0b000000000000_0_0_000000_00000000_1101 = .reservedD := by decide
theorem test_decode_reservedE : decodeWord 0b000000000000_0_0_111111_00000000_1110 = .reservedE := by decide
theorem test_decode_transceive : decodeWord 0b000000000000_1_0_000001_00000111_1111 = .transceive 0x07 1 false true := by decide

theorem test_decode_transceive_ignores_the_top_bits :
    decodeWord 0b111111111111_0_1_000001_00100000_1111 = .transceive 0x20 1 true false := by decide

/-- The request words of 95_test_vectors.md V1, V5, V9, V30, V63, V40. -/
theorem test_encode :
    encode (.rRegister 0 1) = 0x00001000 ∧ encode (.rRegister 0x0A 5) = 0x000050A0 ∧
      encode (.wRegister 0x1D 1) = 0x000011D1 ∧ encode (.wAckPayload 5 2) = 0x00002058 ∧
      encode (.transceive 0x61 2 true true) = 0x000C261F ∧ encode .flushTx = 0x00000004 := by decide

theorem test_decodeTableWord_widths :
    decodeTableWord 32 0x0000000A = some .nop ∧ decodeTableWord 4 0xA = some .nop ∧
      decodeTableWord 4 0x1A = none ∧ decodeTableWord 33 0xA = none ∧
      decodeBits 33 0xA = .error .notOneRequestWord ∧ decodeBits 4 0x1A = .error .bitsBeyondWidth := by
  refine ⟨by decide, by decide, by decide, by decide, by rfl, by rfl⟩

/-! ### The command byte (95_test_vectors.md L2.1) -/

theorem test_compose_address :
    compose params.opc .rRegister 0x0A = 0x0A ∧ compose params.opc .rRegister 0x1D = 0x1D ∧ compose params.opc .wRegister 0x00 = 0x20 ∧
      compose params.opc .wRegister 0x10 = 0x30 ∧ compose params.opc .wRegister 0x1D = 0x3D := by decide

theorem test_compose_pipe_and_fixed :
    compose params.opc .wAckPayload 0 = 0xA8 ∧ compose params.opc .wAckPayload 5 = 0xAD ∧ compose params.opc .rRxPayload 0xFF = 0x61 ∧
      compose params.opc .rRxPlWid 0x55 = 0x60 ∧ compose params.opc .nop 0x01 = 0xFF := by decide

/-! ### The first step of each operation: ACCEPT -/

theorem test_v5_rRegister :
    issues (step (offering 0x000050A0 [])) [0x0A, 0xFF, 0xFF, 0xFF, 0xFF, 0xFF] true = true := by decide
theorem test_v4_rRegister_operand_before_length : responds (step (offering 0x000281F0 [])) 0x00000A00 [] = true := by decide
theorem test_w1_wRegister : issues (step (offering 0x00001001 [0x0E])) [0x20, 0x0E] false = true := by decide
theorem test_v10_wRegister_address_above_range :
    responds (step (offering 0x00001201 [0x00])) 0x00000A00 [] = true := by decide
theorem test_v20_rRxPayload : issues (step (offering 0x00002002 [0x77])) [0x61, 0xFF, 0xFF] true = true := by decide
theorem test_v22_rRxPayload_too_long : responds (step (offering 0x00021002 [])) 0x00000E00 [] = true := by decide
theorem test_v24_wTxPayload :
    issues (step (offering 0x00003003 [0x11, 0x22, 0x33, 0x44])) [0xA0, 0x11, 0x22, 0x33] false = true := by decide
theorem test_v27_wTxPayload_too_long : responds (step (offering 0x0003F003 [])) 0x00000E00 [] = true := by decide
theorem test_v41_flushTx : issues (step (offering 0x0003FFF4 [])) [0xE1] false = true := by decide
theorem test_v42_flushRx : issues (step (offering 0x00000005 [])) [0xE2] false = true := by decide
theorem test_v43_reuseTxPl : issues (step (offering 0x00000006 [])) [0xE3] false = true := by decide
theorem test_v45_rRxPlWid : issues (step (offering 0x00005007 [0x77])) [0x60, 0xFF] true = true := by decide
theorem test_v30_wAckPayload :
    issues (step (offering 0x00002058 [0xC0, 0xDE])) [0xAD, 0xC0, 0xDE] false = true := by decide
theorem test_v33_wAckPayload_operand_before_length :
    responds (step (offering 0x00028078 [])) 0x00000A00 [] = true := by decide
theorem test_v34_wTxPayloadNoack :
    issues (step (offering 0x00002009 [0x01, 0x02])) [0xB0, 0x01, 0x02] false = true := by decide
theorem test_v49_nop : issues (step (offering 0x000C000A [])) [0xFF] false = true := by decide
theorem test_v80_reservedB : responds (step (offering 0x0000000B [])) 0x00000600 [] = true := by decide
theorem test_v81_reservedC : responds (step (offering 0x0000000C [])) 0x00000600 [] = true := by decide
theorem test_v81_reservedD : responds (step (offering 0x0000000D [])) 0x00000600 [] = true := by decide
theorem test_v82_reservedE : responds (step (offering 0x0003F00E [])) 0x00000600 [] = true := by decide
theorem test_v63_transceive :
    issues (step (offering 0x000C261F [0x01, 0x02])) [0x61, 0x01, 0x02] true = true := by decide
theorem test_v66_transceive_too_long : responds (step (offering 0x0002100F [])) 0x00000E00 [] = true := by decide

/-- The parameter corner of 95_test_vectors.md L2.3: with N_MAX = 63 V27 is admitted and sends 64 bytes, and with N_MAX = 1 V20
gives LENGTH_RANGE. -/
theorem test_v27_v20_other_parameters :
    issues (step { offering 0x0003F003 [0x11] with cfg := { params with nMax := 63 } })
        (0xA0 :: 0x11 :: List.replicate 62 0x00) false = true ∧
      responds (step { offering 0x00002002 [] with cfg := { params with nMax := 1 } }) 0x00000E00 [] = true := by decide

/-- Another table OPC and another PIPE_MAX (40_command_encoding.md R101, R105). -/
theorem test_v31_other_parameters :
    issues (step { offering 0x00001078 [0x55] with
        cfg := { params with pipeMax := 7, opc := { opcDefault with wAckPayload := 0xC8 } } }) [0xCF, 0x55] false = true := by
  decide

/-! ### The later steps -/

/-- 95_test_vectors.md W2: R_RX_PL_WID completes with status 0x0E and width 0x20. -/
theorem test_w2_complete_with_inbound :
    responds (step (latched .wait ⟨0x60, 1, false, true⟩ [] (okSignals [0x0E, 0x20]))) 0x0000300E [0x20] = true := by decide

/-- 95_test_vectors.md V64: without inbound payload positions 1..3 are discarded. -/
theorem test_v64_complete_without_inbound :
    responds (step (latched .wait ⟨0x00, 3, false, false⟩ [] (okSignals [0x0E, 1, 2, 3]))) 0x0000000E [] = true := by decide

/-- 95_test_vectors.md V65: inbound payload of length 0. -/
theorem test_v65_complete_with_empty_inbound :
    responds (step (latched .wait ⟨0x00, 0, false, true⟩ [] (okSignals [0x0E]))) 0x0000100E [] = true := by decide

/-- 95_test_vectors.md V84: a bus failure of NOP. -/
theorem test_v84_complete_err :
    responds (step (latched .wait ⟨0xFF, 0, false, false⟩ [] errSignals)) 0x00000100 [] = true := by decide

/-- What a step leaves of the observation and the control state. -/
def leaves (o : Result) (c : Ctrl) (sent : List (List Byte)) (taken : List Word) : Bool :=
  match o with
  | .next t => t.ctrl == c && t.sent == sent && t.taken.map (·.rsp) == taken
  | .fault _ => false
  | .refused _ => false

/-- 95_test_vectors.md V93: HANDOFF. -/
theorem test_v93_handoff :
    leaves (step (latched .issue ⟨0x20, 1, true, false⟩ [0x0E] { Config.Inputs.quiet with xreqReady := true }))
      .wait [[0x20, 0x0E]] [] = true := by decide

/-- 95_test_vectors.md V97: DELIVER. -/
theorem test_v97_deliver :
    leaves (step (responding { Config.Inputs.quiet with rspReady := true })) .idle [] [0x0000000E] = true := by decide

/-- 95_test_vectors.md V92, V94, V96: a step that waits. -/
theorem test_v92_v94_v96_waits :
    leaves (step (latched .issue ⟨0xFF, 0, false, false⟩ [] Config.Inputs.quiet)) .issue [] [] = true ∧
      leaves (step (latched .wait ⟨0xFF, 0, false, false⟩ [] Config.Inputs.quiet)) .wait [] [] = true ∧
      leaves (step (responding Config.Inputs.quiet)) .resp [] [] = true := by decide

/-- 95_test_vectors.md V98, V99, V101: RST takes precedence. -/
theorem test_v98_v99_v101_reset :
    leaves (step { offering 0x0000000A [] with port := { (offering 0x0000000A []).port with rst := true } }) .idle [] [] = true ∧
      leaves (step (latched .issue ⟨0xFF, 0, false, false⟩ [] { Config.Inputs.quiet with rst := true, xreqReady := true }))
        .idle [] [] = true ∧
      leaves (step (responding { Config.Inputs.quiet with rst := true, rspReady := true })) .idle [] [] = true := by decide

/-- An empty latch faults (10_state.md R27). -/
theorem test_empty_latch_faults :
    step { State.reset with ctrl := .issue, port := { Config.Inputs.quiet with xreqReady := true } } =
      .fault (.latchNoValue .len) := rfl

/-- The host's word runs as the first request after reset. -/
theorem test_withFetchWord :
    issues (step (State.reset.withFetchWord 32 0x00001000)) [0x00, 0xFF] true = true ∧
      responds (step (State.reset.withFetchWord 4 0xB)) 0x00000600 [] = true := by decide

/-! ### Witnesses: concrete values that meet the hypotheses of each statement, clause by clause -/

/-- The state most statements start from: a request is offered in IDLE with RST low. -/
theorem witness_acceptReady :
    (offering 0x00001001 [0x0E]).acceptReady = true ∧ (offering 0x00001001 [0x0E]).port.reqValid = true := by decide

theorem witness_IgnoredRequestBitsHaveNoEffect :
    reqOp 0xFFFFFFF4 = reqOp 0x00000004 ∧
      (0xFFFFFFF4 : Word) &&& usedBits (reqOp 0xFFFFFFF4) = 0x00000004 &&& usedBits (reqOp 0xFFFFFFF4) ∧
      reqOp 0xFFFC1001 = reqOp 0x00001001 ∧
      (0xFFFC1001 : Word) &&& usedBits (reqOp 0xFFFC1001) = 0x00001001 &&& usedBits (reqOp 0xFFFC1001) := by decide

/-- Lane 1 differs and lane 0 agrees where one outbound byte is sent; every lane differs where the request is rejected. -/
theorem witness_UnusedOutDataLanesHaveNoEffect :
    (checkReq params 0x00001001 = none ∧ (paramsReq params.opc 0x00001001).oe = true ∧
      (paramsReq params.opc 0x00001001).n.toNat = 1 ∧ lanesOf [0x0E, 0x55] ≠ lanesOf [0x0E] ∧
      (lanesOf [0x0E, 0x55])[0] = (lanesOf [0x0E])[0]) ∧
    checkReq params 0x0000000B ≠ none := by decide

theorem witness_ComposeByFormat :
    params.admissible = true ∧ (Opcode.nop ≠ .rRegister ∧ Opcode.nop ≠ .wRegister ∧ Opcode.nop ≠ .wAckPayload) := by decide

/-- The parameters of R7 at both ends of their ranges, and one past each. -/
theorem test_parameter_constraints :
    ({ params with nMax := 1, pipeMax := 0 } : Config.Params).admissible = true ∧
      ({ params with nMax := 63, pipeMax := 7 } : Config.Params).admissible = true ∧
      ({ params with nMax := 0 } : Config.Params).admissible = false ∧
      ({ params with nMax := 64 } : Config.Params).admissible = false ∧
      ({ params with pipeMax := 8 } : Config.Params).admissible = false ∧
      ({ params with opc := { opcDefault with wAckPayload := 0xAA } } : Config.Params).admissible = false := by decide

theorem witness_RegisterCommandBytesDoNotCollide : (0x00 : Byte).toNat ≤ 0x1D ∧ (0x1D : Byte).toNat ≤ 0x1D := by decide

theorem witness_ContractRequestsFailOnlyOnTheBus :
    params.admissible = true ∧ Instr.wellFormed params (.wAckPayload 5 32) = true ∧
      (offering (encode (.wAckPayload 5 32)) []).acceptReady = true := by decide

/-- Both sides of each bound, and the two values where clauses meet. -/
theorem witness_CheckPriority :
    checkReq params 0x000201D0 = none ∧ checkReq params 0x000201E0 = some .operandRange ∧
      checkReq params 0x000211E0 = some .operandRange ∧ checkReq params 0x000211D0 = some .lengthRange ∧
      checkReq params 0x00020058 = none ∧ checkReq params 0x00020068 = some .operandRange ∧
      checkReq params 0x0003FFFB = some .reservedOp ∧ checkReq params 0x0003FFFE = some .reservedOp ∧
      checkReq params 0x0003FFFA = none ∧ checkReq params 0x0002100F = some .lengthRange := by decide

theorem witness_AcceptFollowsCheckAndParams :
    (offering 0x0000000B []).acceptReady = true ∧ checkReq params 0x0000000B = some .reservedOp ∧
      checkReq params 0x00020002 = none := by decide

theorem witness_OperationIsItsTransceive :
    (reqOp 0x000201D1).toNat ≤ 0xA ∧ checkReq params 0x000201D1 = none ∧ (reqOp 0x0000000A).toNat ≤ 0xA ∧
      checkReq params 0x0000000A = none := by decide

/-- ReadRegisterTransaction and WriteRegisterTransaction: the largest address and length, and one past each. -/
theorem witness_register_clauses :
    ((0x1D : Byte).toNat ≤ 0x1D ∧ (32 : Len).toNat ≤ params.nMax) ∧ 0x1D < (0x1E : Byte).toNat ∧
      ((0x1D : Byte).toNat ≤ 0x1D ∧ params.nMax < (33 : Len).toNat) := by decide

/-- ReadRxPayloadTransaction, WriteTxPayloadTransactions, TransceiveTransaction. -/
theorem witness_length_clauses :
    (0 : Len).toNat ≤ params.nMax ∧ (32 : Len).toNat ≤ params.nMax ∧ params.nMax < (33 : Len).toNat := by decide

theorem witness_WriteAckPayloadTransaction :
    ((5 : Byte).toNat ≤ params.pipeMax ∧ (32 : Len).toNat ≤ params.nMax) ∧ params.pipeMax < (6 : Byte).toNat ∧
      ((5 : Byte).toNat ≤ params.pipeMax ∧ params.nMax < (33 : Len).toNat) := by decide

theorem witness_ReservedOpIsRejected :
    (0xB ≤ (reqOp 0xFFFFFFFB).toNat ∧ (reqOp 0xFFFFFFFB).toNat ≤ 0xE) ∧
      (0xB ≤ (reqOp 0x0000000E).toNat ∧ (reqOp 0x0000000E).toNat ≤ 0xE) := by decide

theorem witness_BusyRequestsWait :
    (responding Config.Inputs.quiet).ctrl ≠ .idle ∧
      ({ offering 0 [] with port := { (offering 0 []).port with rst := true } } : State).port.rst = true := by decide

theorem witness_StepRunsTheOfferedRequest :
    (offering 0x00001000 []).port.rst = false ∧ (offering 0x00001000 []).ctrl = .idle ∧
      (offering 0x00001000 []).port.reqValid = true ∧
      decodeWord (offering 0x00001000 []).port.req = .rRegister 0 1 := by decide

/-- A frame of the largest length is latched, with the command byte of V21. -/
def fullFrame (c : Ctrl) (p : Config.Inputs) : State := latched c ⟨0x61, 32, false, true⟩ [] p

theorem filledTo_fullFrame : FilledTo (loadTx noBytes (lanesOf []) ⟨0x61, 32, false, true⟩) 32 := by
  unfold FilledTo
  decide

theorem frameLatched_fullFrame (c : Ctrl) (p : Config.Inputs) : FrameLatched (fullFrame c p) :=
  ⟨0x61, 32, true, rfl, rfl, show (32 : Len).toNat ≤ params.nMax by decide, rfl, filledTo_fullFrame, rfl⟩

theorem witness_HandoffGivesTheWholeFrame :
    ∃ s : State, s.port.rst = false ∧ s.ctrl = .issue ∧ s.port.xreqReady = true ∧ FrameLatched s ∧ s.len = some 32 :=
  ⟨fullFrame .issue { Config.Inputs.quiet with xreqReady := true }, rfl, rfl, rfl, frameLatched_fullFrame _ _, rfl⟩

theorem witness_CompleteOkDeliversTheBytes :
    ∃ s : State, s.port.rst = false ∧ s.ctrl = .wait ∧ s.port.xrspValid = true ∧ s.port.xrspErr = false ∧
      s.len = some 32 ∧ (32 : Len).toNat ≤ params.nMax ∧ s.inEn = some true :=
  ⟨fullFrame .wait (okSignals [0x40, 0x01]), rfl, rfl, rfl, rfl, rfl, by decide, rfl⟩

theorem witness_CompleteErrPassesTheCode :
    ∃ s : State, s.port.rst = false ∧ s.ctrl = .wait ∧ s.port.xrspValid = true ∧ s.port.xrspErr = true :=
  ⟨fullFrame .wait errSignals, rfl, rfl, rfl, rfl⟩

theorem witness_DeliverTakesTheResponse :
    ∃ (s : State) (r : ResponseLatch), s.port.rst = false ∧ s.ctrl = .resp ∧ s.port.rspReady = true ∧ s.rsp = some r :=
  ⟨responding { Config.Inputs.quiet with rspReady := true }, _, rfl, rfl, rfl, rfl⟩

theorem witness_ResetTakesPrecedence :
    ∃ s : State, s.port.rst = true ∧ s.port.xreqReady = true ∧ s.port.reqValid = true ∧ s.ctrl = .issue ∧
      s.env = [Config.Inputs.quiet] :=
  ⟨{ fullFrame .issue { Config.Inputs.quiet with rst := true, xreqReady := true, reqValid := true } with
      env := [Config.Inputs.quiet] }, rfl, rfl, rfl, rfl, rfl⟩

/-- One state for each clause: an empty LEN in ISSUE, an empty byte of TXBUF at the last position, an empty LEN and an empty
IN_EN in WAIT, and an empty response latch in RESP. -/
theorem witness_ReadingAnEmptyLatchFaults :
    (∃ s : State, s.port.rst = false ∧ s.ctrl = .issue ∧ s.port.xreqReady = true ∧ s.len = none) ∧
    (∃ s : State, s.port.rst = false ∧ s.ctrl = .issue ∧ s.port.xreqReady = true ∧ s.len = some 32 ∧
      (32 : Len).toNat ≤ params.nMax ∧ 32 ≤ (32 : Len).toNat ∧ s.txbuf[32]? = some none) ∧
    (∃ s : State, s.port.rst = false ∧ s.ctrl = .wait ∧ s.port.xrspValid = true ∧ s.port.xrspErr = false ∧ s.len = none) ∧
    (∃ s : State, s.port.rst = false ∧ s.ctrl = .wait ∧ s.port.xrspValid = true ∧ s.port.xrspErr = false ∧
      s.len = some 32 ∧ (32 : Len).toNat ≤ params.nMax ∧ s.inEn = none) ∧
    (∃ s : State, s.port.rst = false ∧ s.ctrl = .resp ∧ s.port.rspReady = true ∧ s.rsp = none) :=
  ⟨⟨{ State.reset with ctrl := .issue, port := { Config.Inputs.quiet with xreqReady := true } }, rfl, rfl, rfl, rfl⟩,
    ⟨{ State.reset with ctrl := .issue, len := some 32, port := { Config.Inputs.quiet with xreqReady := true } },
      rfl, rfl, rfl, rfl, by decide, by decide, by decide⟩,
    ⟨{ State.reset with ctrl := .wait, port := okSignals [] }, rfl, rfl, rfl, rfl, rfl⟩,
    ⟨{ State.reset with ctrl := .wait, len := some 32, port := okSignals [] }, rfl, rfl, rfl, rfl, rfl, by decide, rfl⟩,
    ⟨{ State.reset with ctrl := .resp, port := { Config.Inputs.quiet with rspReady := true } }, rfl, rfl, rfl, rfl⟩⟩

/-- OnlyTheTableTransitions, TrafficGrowsByWholeRecords, OfferedRequestIsHeld: steps that answer a next state, from each
control state, with and without the awaited signal. -/
theorem witness_steps_answer :
    (∃ t, step (offering 0x0000000A []) = .next t) ∧ (∃ t, step (offering 0x0000000B []) = .next t) ∧
    (∃ t, step State.reset = .next t) ∧
    (∃ t, step (fullFrame .issue { Config.Inputs.quiet with xreqReady := true }) = .next t) ∧
    (∃ t, step (fullFrame .wait errSignals) = .next t) ∧
    (∃ t, step (responding { Config.Inputs.quiet with rspReady := true }) = .next t) ∧
    (∃ t, step (responding { Config.Inputs.quiet with rst := true }) = .next t) :=
  ⟨⟨_, rfl⟩, ⟨_, rfl⟩, ⟨_, rfl⟩, ⟨_, rfl⟩, ⟨_, rfl⟩, ⟨_, rfl⟩, ⟨_, rfl⟩⟩

/-- One quiet entry follows in the scenario, so two steps are covered. -/
theorem witness_SilentSilHangsTheCped :
    ∃ s : State, 2 ≤ s.env.length + 1 ∧ (∀ e ∈ (s.port :: s.env).take 2, e.rst = false) ∧
      ((s.ctrl = .issue ∧ ∀ e ∈ (s.port :: s.env).take 2, e.xreqReady = false) ∨
        (s.ctrl = .wait ∧ ∀ e ∈ (s.port :: s.env).take 2, e.xrspValid = false)) :=
  ⟨{ fullFrame .wait Config.Inputs.quiet with env := [Config.Inputs.quiet] }, by decide, by decide,
    .inr ⟨rfl, by decide⟩⟩

theorem witness_SilentSilHangsTheCped_issue :
    ∃ s : State, 2 ≤ s.env.length + 1 ∧ (∀ e ∈ (s.port :: s.env).take 2, e.rst = false) ∧
      s.ctrl = .issue ∧ ∀ e ∈ (s.port :: s.env).take 2, e.xreqReady = false :=
  ⟨{ fullFrame .issue Config.Inputs.quiet with env := [Config.Inputs.quiet] }, by decide, by decide, rfl, by decide⟩

/-- A request offered in RESP, where it waits, and one offered in IDLE with an entry of the scenario after it. -/
theorem witness_OfferedRequestIsHeld :
    (∃ s t : State, step s = .next t ∧ s.port.rst = false ∧ s.port.reqValid = true ∧ s.ctrl ≠ .idle ∧ t.port.rst = false) ∧
    (∃ s t : State, step s = .next t ∧ s.port.rst = false ∧ s.port.reqValid = true ∧ s.ctrl = .idle ∧
      s.env = [Config.Inputs.quiet]) :=
  ⟨⟨{ responding { Config.Inputs.quiet with reqValid := true, req := 0xA } with env := [Config.Inputs.quiet] }, _, rfl, rfl,
      rfl, by decide, rfl⟩,
    ⟨{ offering 0xA [] with env := [Config.Inputs.quiet] }, _, rfl, rfl, rfl, rfl, rfl⟩⟩

theorem witness_ResponseIsHeld :
    ∃ s t : State, step s = .next t ∧ s.rspValid = true ∧ t.rspValid = true :=
  ⟨responding Config.Inputs.quiet, _, rfl, rfl, rfl⟩

theorem witness_RequestIsSampledOnce :
    ∃ s t t' : State, s.ctrl ≠ .idle ∧ step s = .next t ∧
      step { s with port := { s.port with reqValid := true, req := 0xB, outData := lanesOf [1] } } = .next t' :=
  ⟨fullFrame .issue { Config.Inputs.quiet with xreqReady := true }, _, _, by decide, rfl, rfl⟩

/-! ### Witnesses of the invariant, one per control state and kind of response -/

theorem stateInv_idle : StateInv (offering 0x00001000 []) := ⟨by decide, rfl, rfl, rfl, rfl, rfl, rfl⟩

theorem stateInv_issue : StateInv (fullFrame .issue Config.Inputs.quiet) :=
  ⟨by decide, frameLatched_fullFrame _ _, rfl, rfl⟩

theorem stateInv_wait : StateInv (fullFrame .wait Config.Inputs.quiet) :=
  ⟨by decide, frameLatched_fullFrame _ _, rfl, rfl⟩

theorem filledTo_responding :
    FilledTo (loadTx noBytes (lanesOf []) ⟨0xFF, 0, false, false⟩) 0 ∧ FilledTo (loadRx noBytes (received [0x0E]) 0) 0 := by
  unfold FilledTo
  decide

theorem stateInv_resp_precond : StateInv ((offering 0x0000000B []).precondFail .reservedOp) :=
  ⟨by decide, _, rfl, ⟨fun _ => ⟨rfl, rfl⟩, by decide, fun _ => rfl, by decide, by decide, fun _ => rfl⟩, rfl, rfl, rfl, rfl, rfl⟩

theorem stateInv_resp_busErr : StateInv ((fullFrame .wait errSignals).busError 0) :=
  ⟨by decide, _, rfl, ⟨fun _ => ⟨rfl, rfl⟩, by decide, fun _ => rfl, by decide, by decide, fun h => absurd rfl h⟩,
    frameLatched_fullFrame .wait errSignals, rfl⟩

theorem stateInv_resp_ok : StateInv (responding Config.Inputs.quiet) :=
  ⟨by decide, _, rfl, ⟨fun h => absurd rfl h, by decide, fun _ => rfl, by decide, by decide, fun _ => rfl⟩,
    ⟨0xFF, 0, false, rfl, rfl, by decide, rfl, filledTo_responding.1, rfl⟩,
    fun n h => by cases h; exact filledTo_responding.2, rfl, fun h => by cases h⟩

theorem witness_NothingSurvivesATransaction :
    ∃ s s' t t' : State, StateInv s ∧ StateInv s' ∧ s.ctrl = .idle ∧ s'.ctrl = .idle ∧ s'.cfg = s.cfg ∧ s'.port = s.port ∧
      s.sent ≠ s'.sent ∧
      step s = .next t ∧ step s' = .next t' :=
  ⟨offering 0x00001000 [], { offering 0x00001000 [] with sent := [[0xFF]] }, _, _, stateInv_idle, stateInv_idle, rfl, rfl, rfl, rfl,
    by decide, rfl, rfl⟩

theorem witness_ResponseWordLayout :
    ∃ (s : State) (r : ResponseLatch), StateInv s ∧ s.ctrl = .resp ∧ s.rsp = some r :=
  ⟨responding Config.Inputs.quiet, _, stateInv_resp_ok, rfl, rfl⟩

/-! ### A scenario that serves a program of two requests, with waiting -/

/-- The SIL takes the frame. -/
def takes : Config.Inputs := { Config.Inputs.quiet with xreqReady := true }

/-- The requester takes the response. -/
def takesResponse : Config.Inputs := { Config.Inputs.quiet with rspReady := true }

/-- W_REGISTER(CONFIG, [0x0E], 1), and the reserved OP 0xB. -/
def writeConfig : Request := ⟨0x00001001, lanesOf [0x0E]⟩
def reservedRequest : Request := ⟨0x0000000B, lanesOf []⟩

/-- The next request is offered while the CPED is busy with the first. -/
def early (p : Config.Inputs) : Config.Inputs := { p with reqValid := true, req := 0x0000000B, outData := lanesOf [] }

theorem waits_quiet (awaited : Config.Inputs → Bool) (h : awaited Config.Inputs.quiet = false) :
    Waits awaited [Config.Inputs.quiet] := by
  intro e he; cases List.mem_singleton.1 he; exact ⟨rfl, h⟩

theorem waits_nothing (awaited : Config.Inputs → Bool) : Waits awaited [] := by
  intro e he; cases he

/-- The scenario: W_REGISTER after a wait; the frame taken after a wait; the next request offered early, from the step of the
result on; its response taken. -/
theorem witness_ProgramsRunAsSequencesOfTransact :
    ∃ (es rest : List Config.Inputs) (s : State), s.cfg.admissible = true ∧
      ServesAll s.cfg rest [(writeConfig, .ok (received [0x0E, 0x08])), (reservedRequest, .err 0)] es ∧
        s.port :: s.env = es ++ rest ∧ rest ≠ [] ∧ s.ctrl = .idle ∧ LatchesEmpty s := by
  have first : Serves params writeConfig (.ok (received [0x0E, 0x08])) _ _ :=
    .accepted [Config.Inputs.quiet] [Config.Inputs.quiet] [] [] (offering 0x00001001 [0x0E]).port takes
      (early (okSignals [0x0E, 0x08])) (early takesResponse) (by decide) (waits_quiet _ rfl) ⟨rfl, rfl, rfl, rfl⟩
      (waits_quiet _ rfl) ⟨rfl, rfl⟩ (waits_nothing _) ⟨rfl, rfl⟩ rfl (waits_nothing _) ⟨rfl, rfl⟩
  have second : Serves params reservedRequest (.err 0) _ _ :=
    .rejected [] [] (early Config.Inputs.quiet) takesResponse (by decide) (waits_nothing _) ⟨rfl, rfl, rfl, rfl⟩
      (waits_nothing _) ⟨rfl, rfl⟩
  refine ⟨_, [Config.Inputs.quiet],
    { State.reset with
      env := [(offering 0x00001001 [0x0E]).port, Config.Inputs.quiet, takes, early (okSignals [0x0E, 0x08]),
        early takesResponse, early Config.Inputs.quiet, takesResponse, Config.Inputs.quiet] },
    by decide, .next _ _ _ _ _ _ first ?_ (.next _ _ _ _ _ _ second ?_ .done), rfl, by simp, rfl,
    ⟨rfl, rfl, rfl, rfl, rfl, rfl⟩⟩
  · simp [KeepsRequest, early, takes, takesResponse, okSignals, Config.Inputs.quiet]
  · simp [KeepsRequest, takesResponse, Config.Inputs.quiet]

/-- CallsSpellTheirRequests: counts at both ends, a list of the written length and a list of another. -/
theorem witness_CallsSpellTheirRequests :
    (0 < 64 ∧ 63 < 64) ∧ ([] : List Byte).length = 0 ∧ (List.replicate 63 (0x0E : Byte)).length = 63 ∧
      [(0x0E : Byte)].length ≠ 2 := by decide

/-- The names of registers are read as their addresses (40_command_encoding.md R110). -/
theorem test_register_names :
    addressOf "CONFIG".toList = some 0x00 ∧ addressOf "TX_ADDR".toList = some 0x10 ∧
      addressOf "FIFO_STATUS".toList = some 0x17 ∧ addressOf "0x1D".toList = some 0x1D ∧
      addressOf "CONFIGURE".toList = none := by decide

end Sys2Proof.Tests
end

section
/-! PROOFS, family 10_state.md. The transitions of the control register: the state each transition enters (R23), that only
the transitions of the table take place, and that the response is held while RSP_VALID is high (R38). -/

namespace Sys2Proof.Proofs.Transitions

open Sys2Proof Sys2Proof.Machine Sys2Proof.Safety

/-! ### The control state each transition enters -/

/-- ACCEPT enters ISSUE exactly where Check finds no failure, and RESP where it finds one. -/
theorem accept_ctrl {w : Word} {s u : State} (hs : s.acceptReady = true) (h : exec (decodeWord w) s = .next u) :
    (checkReq s.cfg w = none ∧ u.ctrl = .issue) ∨ (checkReq s.cfg w ≠ none ∧ u.ctrl = .resp) := by
  rw [exec_decodeWord w hs] at h
  cases hc : checkReq s.cfg w with
  | none =>
    rw [hc] at h
    cases h
    exact .inl ⟨rfl, rfl⟩
  | some c =>
    rw [hc] at h
    cases h
    exact .inr ⟨by simp, rfl⟩

theorem handoff_ctrl {s u : State} (h : handoff s = .next u) : u.ctrl = .wait := by
  obtain ⟨n, frame, -, -, -, rfl⟩ := handoff_next h
  rfl

theorem complete_ctrl {r : SilResult} {s u : State} (h : complete r s = .next u) : u.ctrl = .resp := by
  obtain ⟨xrx, n, ie, -, -, -, -, rfl⟩ | ⟨code, -, rfl⟩ := complete_next h <;> rfl

theorem deliver_ctrl {s u : State} (h : deliver s = .next u) : u.ctrl = .idle := by
  obtain ⟨r, -, rfl⟩ := deliver_next h
  rfl

/-! ### Waiting -/

/-- The input signals moving on touch no register of the CPED. -/
theorem sameRegisters_advance (b : Bool) (s : State) : SameRegisters s (s.advance b) :=
  ⟨rfl, rfl, rfl, rfl, rfl, rfl, rfl, rfl⟩

/-- The input signals moving on are not observed. -/
theorem sameObservation_advance (b : Bool) (s : State) : SameObservation s (s.advance b) := ⟨rfl, rfl⟩

/-! ### The table of transitions -/

/-- Settles O35, by the transition of each control state: `step_cases` says which one a step takes, and the lemmas above
which state it enters. -/
theorem onlyTheTableTransitions : Obligations.OnlyTheTableTransitions := by
  intro s t h
  obtain ⟨hr, rfl⟩ | ⟨hr, hstep⟩ := step_cases h
  · exact .inl ⟨hr, rfl⟩
  refine .inr ⟨hr, ?_⟩
  obtain ⟨hc, hv, u, hu, rfl⟩ | ⟨hc, hv, u, hu, rfl⟩ | ⟨hc, hv, u, hu, rfl⟩ | ⟨hc, hv, u, hu, rfl⟩ | ⟨hwait, rfl⟩ :=
    hstep
  · obtain ⟨hcheck, hu⟩ | ⟨hcheck, hu⟩ := accept_ctrl ((s.acceptReady_iff).2 ⟨hr, hc⟩) hu
    · exact .inl ⟨hc, hv, hcheck, hu⟩
    · exact .inr (.inl ⟨hc, hv, hcheck, hu⟩)
  · exact .inr (.inr (.inl ⟨hc, hv, by simpa using handoff_ctrl hu⟩))
  · exact .inr (.inr (.inr (.inl ⟨hc, hv, by simpa using complete_ctrl hu⟩)))
  · exact .inr (.inr (.inr (.inr (.inl ⟨hc, hv, by simpa using deliver_ctrl hu⟩))))
  · refine .inr (.inr (.inr (.inr (.inr ⟨sameRegisters_advance _ s, sameObservation_advance _ s, ?_⟩))))
    obtain ⟨hc, hv⟩ | ⟨hc, hv⟩ | ⟨hc, hv⟩ | ⟨hc, hv⟩ := hwait <;> simp [hc, hv]

/-! ### The response -/

/-- RSP_VALID is high exactly in RESP. -/
theorem rspValid_iff (s : State) : s.rspValid = true ↔ s.ctrl = .resp := by
  simp [State.rspValid]

/-- Every transition of the table out of RESP ends in IDLE, so a step that stays in RESP writes no register. -/
theorem sameRegisters_of_resp_to_resp {s t : State} (h : step s = .next t) (hs : s.ctrl = .resp)
    (ht : t.ctrl = .resp) : SameRegisters s t := by
  obtain ⟨-, hidle⟩ | ⟨-, hrow⟩ := onlyTheTableTransitions s t h
  · simp [ht] at hidle
  · simp only [hs, ht, reduceCtorEq, false_and, and_false, false_or] at hrow
    exact hrow.1

/-- Settles O39: RSP_VALID high before and after a step means that the step stays in RESP, so it keeps the response latch,
from which the response is driven. -/
theorem responseIsHeld : Obligations.ResponseIsHeld := by
  refine ⟨rspValid_iff, fun s t h hs ht => ?_⟩
  obtain ⟨-, -, -, -, -, -, -, hrsp⟩ :=
    sameRegisters_of_resp_to_resp h ((rspValid_iff s).1 hs) ((rspValid_iff t).1 ht)
  simp only [State.response, hrsp]

end Sys2Proof.Proofs.Transitions
end

section
/-! PROOFS, family 30_encoding.md. The request word: its fields (R70), the operation OP selects (R71), the bits and the
OUT_DATA lanes that are ignored (R75, R76). The command byte (R87). The response word (R80). -/

namespace Sys2Proof.Proofs.Encoding

open Sys2Proof Sys2Proof.Machine Sys2Proof.Safety

/-! ### The operation of a word, from its fields (R71) -/

/-- The row of 30_encoding.md R71 for a value of OP, with the fields its operation uses. -/
def operationOf (op : BitVec 4) (operand : Byte) (len : Len) (outEn inEn : Bool) : Instr :=
  match op.toNat with
  | 0x0 => .rRegister operand len
  | 0x1 => .wRegister operand len
  | 0x2 => .rRxPayload len
  | 0x3 => .wTxPayload len
  | 0x4 => .flushTx
  | 0x5 => .flushRx
  | 0x6 => .reuseTxPl
  | 0x7 => .rRxPlWid
  | 0x8 => .wAckPayload operand len
  | 0x9 => .wTxPayloadNoack len
  | 0xA => .nop
  | 0xB => .reservedB
  | 0xC => .reservedC
  | 0xD => .reservedD
  | 0xE => .reservedE
  | _ => .transceive operand len outEn inEn

/-- The decoder is that table, applied to the fields of the word. -/
theorem decodeWord_eq_operationOf (w : Word) :
    decodeWord w = operationOf (reqOp w) (reqOperand w) (reqLen w) (reqOutEn w) (reqInEn w) := by
  rcases decodeWord_cases w with ⟨h, e⟩ | ⟨h, e⟩ | ⟨h, e⟩ | ⟨h, e⟩ | ⟨h, e⟩ | ⟨h, e⟩ | ⟨h, e⟩ | ⟨h, e⟩ | ⟨h, e⟩ |
    ⟨h, e⟩ | ⟨h, e⟩ | ⟨h, e⟩ | ⟨h, e⟩ | ⟨h, e⟩ | ⟨h, e⟩ | ⟨h, e⟩ <;> rw [e, h] <;> rfl

/-- The rows of the table are told apart by their OP value. -/
theorem opNumber_operationOf (op : BitVec 4) (operand : Byte) (len : Len) (outEn inEn : Bool) :
    (operationOf op operand len outEn inEn).opNumber = op := by
  obtain ⟨n, hn⟩ := op
  interval_cases n <;> rfl

/-- A word has an OP value exactly when it decodes to that value's row. -/
theorem reqOp_eq_iff (w : Word) (op : BitVec 4) :
    reqOp w = op ↔ decodeWord w = operationOf op (reqOperand w) (reqLen w) (reqOutEn w) (reqInEn w) := by
  rw [decodeWord_eq_operationOf]
  constructor
  · rintro rfl
    rfl
  · intro h
    simpa only [opNumber_operationOf] using congrArg Instr.opNumber h

/-- Settles O4: each clause is `reqOp_eq_iff` at one value of OP. -/
theorem opFieldSelectsTheOperation : Obligations.OpFieldSelectsTheOperation := fun w =>
  ⟨reqOp_eq_iff w 0x0, reqOp_eq_iff w 0x1, reqOp_eq_iff w 0x2, reqOp_eq_iff w 0x3, reqOp_eq_iff w 0x4,
    reqOp_eq_iff w 0x5, reqOp_eq_iff w 0x6, reqOp_eq_iff w 0x7, reqOp_eq_iff w 0x8, reqOp_eq_iff w 0x9,
    reqOp_eq_iff w 0xA, reqOp_eq_iff w 0xB, reqOp_eq_iff w 0xC, reqOp_eq_iff w 0xD, reqOp_eq_iff w 0xE,
    reqOp_eq_iff w 0xF⟩

/-! ### The bits an operation ignores (R75) -/

theorem reqOp_and (w m : Word) : reqOp (w &&& m) = reqOp w &&& reqOp m := BitVec.extractLsb'_and
theorem reqOperand_and (w m : Word) : reqOperand (w &&& m) = reqOperand w &&& reqOperand m := BitVec.extractLsb'_and
theorem reqLen_and (w m : Word) : reqLen (w &&& m) = reqLen w &&& reqLen m := BitVec.extractLsb'_and
theorem reqOutEn_and (w m : Word) : reqOutEn (w &&& m) = (reqOutEn w && reqOutEn m) := BitVec.getLsbD_and
theorem reqInEn_and (w m : Word) : reqInEn (w &&& m) = (reqInEn w && reqInEn m) := BitVec.getLsbD_and

/-- Every operation uses all of OP. -/
theorem reqOp_usedBits : ∀ op : BitVec 4, reqOp (usedBits op) = BitVec.allOnes 4 := by decide

/-- The mask of used bits keeps the fields that stand in the operation's row. -/
theorem operationOf_usedBits (op : BitVec 4) (operand : Byte) (len : Len) (outEn inEn : Bool) :
    operationOf op (operand &&& reqOperand (usedBits op)) (len &&& reqLen (usedBits op))
      (outEn && reqOutEn (usedBits op)) (inEn && reqInEn (usedBits op)) = operationOf op operand len outEn inEn := by
  have keepsOperand : operand &&& 0xFF#8 = operand := BitVec.and_allOnes
  have keepsLen : len &&& 0x3F#6 = len := BitVec.and_allOnes
  obtain ⟨n, hn⟩ := op
  interval_cases n <;> simp [operationOf, usedBits, reqOperand, reqLen, reqOutEn, reqInEn, keepsOperand, keepsLen]

/-- Clearing the bits its operation ignores does not change the instruction of a word. -/
theorem decodeWord_and_usedBits (w : Word) : decodeWord (w &&& usedBits (reqOp w)) = decodeWord w := by
  simp only [decodeWord_eq_operationOf, reqOp_and, reqOp_usedBits, BitVec.and_allOnes, reqOperand_and, reqLen_and,
    reqOutEn_and, reqInEn_and, operationOf_usedBits]

/-- Words that agree on OP and on the bits its operation uses are the same instruction. -/
theorem decodeWord_eq_of_usedBits {w w' : Word} (hop : reqOp w = reqOp w')
    (hused : w &&& usedBits (reqOp w) = w' &&& usedBits (reqOp w)) : decodeWord w = decodeWord w' := by
  rw [← decodeWord_and_usedBits w, hused, hop, decodeWord_and_usedBits]

/-- The step that accepts an offered request: its ACCEPT, after which the environment moves on. -/
theorem step_offered {s : State} (hs : s.acceptReady = true) (hv : s.port.reqValid = true) :
    step s = onNext (exec (decodeWord s.port.req) s) fun t => .next (t.advance true) := by
  obtain ⟨hr, hc⟩ := s.acceptReady_iff.1 hs
  rw [step_idle hr hc, if_pos hv]

/-- What the environment drives after an accepted request does not depend on the signals of the accepting step. -/
theorem advance_true_port (s : State) (p : Config.Inputs) : { s with port := p }.advance true = s.advance true := by
  simp only [State.advance, holdRequest_accepted]
  rfl

/-- The accepting step looks at the offered word through the decoder only. -/
theorem step_offered_word {s : State} (w : Word) (hs : s.acceptReady = true) (hv : s.port.reqValid = true) :
    step { s with port := { s.port with req := w } } =
      onNext (exec (decodeWord w) s) fun t => .next (t.advance true) := by
  rw [step_offered (s := { s with port := { s.port with req := w } }) hs hv,
    exec_port _ s { s.port with req := w } rfl rfl, onNext_assoc]
  simp only [onNext_next, advance_true_port]

/-- Settles O5: the two words are one instruction, and the accepting step looks at the word through the decoder only. -/
theorem ignoredRequestBitsHaveNoEffect : Obligations.IgnoredRequestBitsHaveNoEffect := by
  intro w w' hop hused
  have hdecode := decodeWord_eq_of_usedBits hop hused
  refine ⟨hdecode, fun s hs hv => ?_⟩
  rw [step_offered_word w hs hv, step_offered_word w' hs hv, hdecode]

/-! ### The fields of a word (R70) -/

/-- No operation uses a bit of [31:20]. -/
theorem and_usedBits_of_low20 : ∀ op : BitVec 4, 0x000FFFFF &&& usedBits op = usedBits op := by decide

/-- The reserved bits [31:20] are ignored. -/
theorem decodeWord_low20 (w : Word) : decodeWord (w &&& 0x000FFFFF) = decodeWord w := by
  have hop : reqOp (w &&& 0x000FFFFF) = reqOp w := by
    rw [reqOp_and]
    exact BitVec.and_allOnes
  apply decodeWord_eq_of_usedBits hop
  rw [BitVec.and_assoc, and_usedBits_of_low20, hop]

/-- The value of a word is the sum of its fields, each at its place, and its reserved bits. -/
theorem toNat_eq_sum_fields (w : Word) :
    w.toNat = (reqOp w).toNat + (reqOperand w).toNat * 2 ^ 4 + (reqLen w).toNat * 2 ^ 12 + (reqOutEn w).toNat * 2 ^ 18
      + (reqInEn w).toNat * 2 ^ 19 + (w.extractLsb' 20 12).toNat * 2 ^ 20 := by
  have hw := w.isLt
  simp only [reqOp, reqOperand, reqLen, reqOutEn, reqInEn, BitVec.extractLsb'_toNat, BitVec.getLsbD,
    Nat.toNat_testBit, Nat.shiftRight_eq_div_pow]
  omega

/-- A built word has no reserved bit. -/
theorem reserved_buildReq (op : BitVec 4) (d : Byte) (l : Len) (o i : Bool) :
    (buildReq op d l o i).extractLsb' 20 12 = 0#12 := by
  apply BitVec.eq_of_getLsbD_eq
  intro k hk
  simp [buildReq, hk, BitVec.getLsbD_of_ge op (20 + k) (by omega), BitVec.getLsbD_of_ge d (20 + k - 4) (by omega),
    BitVec.getLsbD_of_ge l (20 + k - 12) (by omega), show 20 + k - 18 ≠ 0 by omega, show 20 + k - 19 ≠ 0 by omega]

/-- Settles O3: the fields read back one by one, and the value is the sum of the fields of any word, of which a built one
has no reserved bit. -/
theorem requestFieldsStandAtTheirBits : Obligations.RequestFieldsStandAtTheirBits := by
  refine ⟨decodeWord_low20, fun op operand len outEn inEn => ?_⟩
  have hsum := toNat_eq_sum_fields (buildReq op operand len outEn inEn)
  rw [Laws.EncodedOp.reqOp_buildReq, reqOperand_buildReq, reqLen_buildReq, reqOutEn_buildReq, reqInEn_buildReq,
    reserved_buildReq, BitVec.toNat_zero, Nat.zero_mul, Nat.add_zero] at hsum
  exact ⟨Laws.EncodedOp.reqOp_buildReq .., reqOperand_buildReq .., reqLen_buildReq .., reqOutEn_buildReq ..,
    reqInEn_buildReq .., hsum⟩

/-! ### The OUT_DATA lanes (R76) -/

/-- The loaded frame depends on the lanes below N only, and on none where no outbound payload is sent. -/
theorem loadTx_congr {buf : Vector (Option Byte) (Config.lanes + 1)} {out out' : Vector Byte Config.lanes}
    {p : FrameParams} (h : p.oe = true → ∀ (i : Nat) (h : i < Config.lanes), i < p.n.toNat → out[i] = out'[i]) :
    loadTx buf out p = loadTx buf out' p := by
  apply Vector.ext
  intro i hi
  rw [getElem_loadTx, getElem_loadTx]
  split_ifs with h0 hn hoe
  · rfl
  · rw [h hoe (i - 1) (by omega) (by omega)]
  · rfl
  · rfl

/-- A frame built while OUT_DATA holds other lanes, which the frame does not take, is the same frame. -/
theorem buildFrame_outData {s : State} {lanes : Vector Byte Config.lanes} {p : FrameParams}
    (h : p.oe = true → ∀ (i : Nat) (h : i < Config.lanes), i < p.n.toNat → lanes[i] = s.port.outData[i]) :
    { s with port := { s.port with outData := lanes } }.buildFrame p =
      { s.buildFrame p with port := { s.port with outData := lanes } } := by
  simp only [State.buildFrame, loadTx_congr h]

/-- The step that accepts an offered word which passes Check. -/
theorem step_offered_pass {s : State} (hs : s.acceptReady = true) (hv : s.port.reqValid = true)
    (hc : checkReq s.cfg s.port.req = none) :
    step s = .next ((s.buildFrame (paramsReq s.cfg.opc s.port.req)).advance true) := by
  rw [step_offered hs hv, exec_decodeWord _ hs, hc]
  rfl

/-- The step that rejects an offered word which fails Check. -/
theorem step_offered_fail {s : State} {c : Cause} (hs : s.acceptReady = true) (hv : s.port.reqValid = true)
    (hc : checkReq s.cfg s.port.req = some c) : step s = .next ((s.precondFail c).advance true) := by
  rw [step_offered hs hv, exec_decodeWord _ hs, hc]
  rfl

/-- Settles O6: a frame takes the lanes below N only, a rejection takes none, and the environment moves on alike. -/
theorem unusedOutDataLanesHaveNoEffect : Obligations.UnusedOutDataLanesHaveNoEffect := by
  constructor
  · intro s hs hv hc hoe
    refine ⟨_, step_offered_pass hs hv hc, fun i hi hn => ?_⟩
    simp [getElem_loadTx, hoe, Nat.succ_le_of_lt hn]
  · intro s lanes hs hv hlanes
    cases hc : checkReq s.cfg s.port.req with
    | none =>
      calc step { s with port := { s.port with outData := lanes } }
        _ = .next (({ s with port := { s.port with outData := lanes } }.buildFrame
              (paramsReq s.cfg.opc s.port.req)).advance true) :=
              step_offered_pass (s := { s with port := { s.port with outData := lanes } }) hs hv hc
        _ = .next ((s.buildFrame (paramsReq s.cfg.opc s.port.req)).advance true) := by
              rw [buildFrame_outData (hlanes hc), advance_true_port]
        _ = step s := (step_offered_pass hs hv hc).symm
    | some c =>
      calc step { s with port := { s.port with outData := lanes } }
        _ = .next (({ s.precondFail c with port := { s.port with outData := lanes } }).advance true) :=
              step_offered_fail (s := { s with port := { s.port with outData := lanes } }) hs hv hc
        _ = .next ((s.precondFail c).advance true) := by rw [advance_true_port]
        _ = step s := (step_offered_fail hs hv hc).symm

/-! ### The command byte (R87) -/

/-- An operand ORed into a field that is 0 in the base: OR is addition, and base and operand are recovered. -/
theorem or_field {base mask : Byte} (operand : Byte) (h : base &&& mask = 0#8) :
    base ||| operand &&& mask = base + (operand &&& mask) ∧
      (base ||| operand &&& mask) &&& ~~~mask = base ∧
      (base ||| operand &&& mask) &&& mask = operand &&& mask := by
  have disjoint : base &&& (operand &&& mask) = 0#8 := by
    rw [BitVec.and_comm operand, ← BitVec.and_assoc, h, BitVec.zero_and]
  have outside : base &&& ~~~mask = base := by
    calc base &&& ~~~mask
      _ = base &&& ~~~mask ||| base &&& mask := by rw [h, BitVec.or_zero]
      _ = base := by rw [← BitVec.and_or_distrib_left, BitVec.or_comm, BitVec.or_not_self, BitVec.and_allOnes]
  refine ⟨(BitVec.add_eq_or_of_and_eq_zero _ _ disjoint).symm, ?_, ?_⟩
  · rw [BitVec.and_or_distrib_right, outside, BitVec.and_assoc, BitVec.and_not_self, BitVec.ofNat_eq_ofNat,
      BitVec.and_zero, BitVec.or_zero]
  · rw [BitVec.and_or_distrib_right, h, BitVec.and_assoc, BitVec.and_self, BitVec.zero_or]

/-- The two operand fields of a command byte, as masks. -/
theorem low5_eq_and : ∀ d : Byte, (d.extractLsb' 0 5).setWidth 8 = d &&& 0x1F := by decide
theorem low3_eq_and : ∀ d : Byte, (d.extractLsb' 0 3).setWidth 8 = d &&& 0x07 := by decide

/-- Compose by the format of the opcode. -/
theorem compose_address {op : Opcode} (t : Config.OpcTable) (operand : Byte) (h : formatOf op = .address) :
    compose t op operand = opcOf t op ||| operand &&& 0x1F := by
  simp only [compose, h, low5_eq_and]

theorem compose_pipe {op : Opcode} (t : Config.OpcTable) (operand : Byte) (h : formatOf op = .pipe) :
    compose t op operand = opcOf t op ||| operand &&& 0x07 := by
  simp only [compose, h, low3_eq_and]

theorem compose_fixed {op : Opcode} (t : Config.OpcTable) (operand : Byte) (h : formatOf op = .fixed) :
    compose t op operand = opcOf t op := by
  simp only [compose, h]

/-- The operations without an operand are those of format F. -/
theorem formatOf_fixed {op : Opcode} (hr : op ≠ .rRegister) (hw : op ≠ .wRegister) (ha : op ≠ .wAckPayload) :
    formatOf op = .fixed := by
  cases op with
  | rRegister => exact absurd rfl hr
  | wRegister => exact absurd rfl hw
  | wAckPayload => exact absurd rfl ha
  | _ => rfl

/-- R101's constraint on the base of W_ACK_PAYLOAD. -/
theorem wAckPayload_base {c : Config.Params} (h : c.admissible = true) : c.opc.wAckPayload &&& 0x07 = 0#8 := by
  simp only [Config.Params.admissible, Bool.and_eq_true, beq_iff_eq] at h
  exact h.2

/-- Settles O9: the format gives the operand's field, which is 0 in the base, and `or_field` says the rest. -/
theorem composeByFormat : Obligations.ComposeByFormat := by
  intro c op operand hadm
  refine ⟨fun hr hw ha => compose_fixed _ _ (formatOf_fixed hr hw ha), ?_, ?_⟩
  · intro hop
    have hformat : formatOf op = .address := by rcases hop with rfl | rfl <;> rfl
    have hbase : opcOf c.opc op &&& 0x1F = 0#8 := by rcases hop with rfl | rfl <;> simp [opcOf]
    rw [compose_address _ _ hformat]
    exact ⟨rfl, or_field operand hbase⟩
  · rintro rfl
    rw [compose_pipe _ _ rfl]
    exact ⟨rfl, or_field operand (wAckPayload_base hadm)⟩

/-! ### The response word (R80) -/

/-- A field above the lower part of a word is that field of the upper part. -/
theorem extractLsb'_append_above {v w start len : Nat} {hi : BitVec v} {lo : BitVec w} {x : BitVec len}
    (h : hi.extractLsb' start len = x) : (hi ++ lo).extractLsb' (w + start) len = x := by
  rw [BitVec.extractLsb'_append_eq_of_le (Nat.le_add_right w start), Nat.add_sub_cancel_left, h]

section Fields
variable (r : ResponseLatch)

@[simp] theorem rspWord_status : (rspWord r).extractLsb' 0 8 = r.status := BitVec.extractLsb'_append_eq_right

@[simp] theorem rspWord_kind : (rspWord r).extractLsb' 8 2 = kindBits r.kind :=
  extractLsb'_append_above BitVec.extractLsb'_append_eq_right

@[simp] theorem rspWord_perr : (rspWord r).extractLsb' 10 2 = causeBits r.perr :=
  extractLsb'_append_above (start := 2) <| extractLsb'_append_above BitVec.extractLsb'_append_eq_right

@[simp] theorem rspWord_inValid : (rspWord r).extractLsb' 12 1 = BitVec.ofBool r.inValid :=
  extractLsb'_append_above (start := 4) <| extractLsb'_append_above (start := 2) <|
    extractLsb'_append_above BitVec.extractLsb'_append_eq_right

@[simp] theorem rspWord_inLen : (rspWord r).extractLsb' 13 6 = r.inLen :=
  extractLsb'_append_above (start := 5) <| extractLsb'_append_above (start := 3) <|
    extractLsb'_append_above (start := 1) <| extractLsb'_append_above BitVec.extractLsb'_append_eq_right

@[simp] theorem rspWord_reserved : (rspWord r).extractLsb' 19 13 = 0#13 :=
  extractLsb'_append_above (start := 11) <| extractLsb'_append_above (start := 9) <|
    extractLsb'_append_above (start := 7) <| extractLsb'_append_above (start := 6)
      BitVec.extractLsb'_append_eq_left

end Fields

theorem kindBits_eq_ok (k : Kind) : kindBits k = 0b00#2 ↔ k = .ok := by cases k <;> decide
theorem kindBits_eq_busErr (k : Kind) : kindBits k = 0b01#2 ↔ k = .busErr := by cases k <;> decide
theorem kindBits_eq_precond (k : Kind) : kindBits k = 0b10#2 ↔ k = .precond := by cases k <;> decide
theorem kindBits_ne_three (k : Kind) : kindBits k ≠ 0b11#2 := by cases k <;> decide

/-- PERR is 0b00 exactly where there is no cause. -/
theorem causeBits_ne_zero (c : Option Cause) : causeBits c ≠ 0b00#2 ↔ c.isSome := by
  rcases c with _ | _ | _ | _ <;> decide

theorem ofBool_eq_one (b : Bool) : BitVec.ofBool b = 1#1 ↔ b = true := by cases b <;> decide
theorem ofBool_eq_zero (b : Bool) : BitVec.ofBool b = 0#1 ↔ b = false := by cases b <;> decide

/-- What the invariant says of the response latch in RESP: its fields agree with its kind, and those of a completed
exchange with the latched frame. -/
theorem stateInv_response {s : State} {r : ResponseLatch} (hinv : StateInv s) (hc : s.ctrl = .resp)
    (hr : s.rsp = some r) :
    ResponseConsistent s.cfg r ∧
      (r.kind = .ok → s.inEn = some r.inValid ∧ (r.inValid = true → s.len = some r.inLen)) := by
  obtain ⟨-, hinv⟩ := hinv
  rw [hc] at hinv
  obtain ⟨r', hr', hcons, hkind⟩ := hinv
  obtain rfl : r = r' := Option.some.inj (hr.symm.trans hr')
  refine ⟨hcons, fun hok => ?_⟩
  rw [hok] at hkind
  obtain ⟨-, -, hie, hlen⟩ := hkind
  exact ⟨hie, hlen⟩

/-- Settles O42: the fields of the word are those of the response latch, of which the invariant says the rest. -/
theorem responseWordLayout : Obligations.ResponseWordLayout := by
  intro s r hinv hc hr
  obtain ⟨⟨hfail, hperr, hnone, -, hlanes, herr⟩, hok⟩ := stateInv_response hinv hc hr
  have hvalid : r.inValid = true → r.kind = .ok := by
    intro hv
    by_contra hk
    simp [(hfail hk).2] at hv
  refine ⟨responseOf r, by simp [State.response, hr], ?_⟩
  simp only [responseOf, rspWord_status, rspWord_kind, rspWord_perr, rspWord_inValid, rspWord_inLen, rspWord_reserved,
    BitVec.ofNat_eq_ofNat, ne_eq, kindBits_eq_ok, kindBits_eq_busErr, kindBits_eq_precond, ofBool_eq_one, ofBool_eq_zero]
  exact ⟨trivial, trivial, trivial, trivial, trivial, trivial, trivial, trivial, kindBits_ne_three _, hfail,
    (causeBits_ne_zero _).trans hperr, fun h => (hok h).1, fun h => (hok (hvalid h)).2 h, hnone, hlanes, herr⟩

end Sys2Proof.Proofs.Encoding
end

section
/-! PROOFS, family 40_command_encoding.md. The filler byte (R103). -/

namespace Sys2Proof.Proofs.CommandEncoding

open Sys2Proof Sys2Proof.Machine

/-- NOP is not an entry of the configured table: the source fixes its opcode (R101), at the value of FILL. -/
theorem opcOf_nop (t : Config.OpcTable) : opcOf t .nop = fill := rfl

/-- Settles O7: FILL is the constant of R103, and no configured table changes the opcode of NOP. -/
theorem fillerIsNopOpcode : Obligations.FillerIsNopOpcode :=
  ⟨rfl, fun t => (opcOf_nop t).symm⟩

end Sys2Proof.Proofs.CommandEncoding
end

section
/-! PROOFS, family 41_transaction_framer.md. ACCEPT of a request as one transaction (R130, R131), and the steps after it:
HANDOFF (R135), COMPLETE with `ok` (R136 to R139) and DELIVER (R140). -/

namespace Sys2Proof.Proofs.TransactionFramer

open Sys2Proof Sys2Proof.Machine Sys2Proof.Safety Sys2Proof.Proofs.Transitions

/-! ### The frame ACCEPT builds (R131, R132) -/

/-- The payload of a frame has its N bytes, from OUT_DATA or of filler. -/
theorem length_payload (oe : Bool) (n : Len) (s : State) :
    (if oe then outBytes s n else fillers n).length = n.toNat := by
  have hn : n.toNat ≤ Config.lanes := len_le_lanes n
  cases oe with
  | false => simp [fillers]
  | true => simpa [outBytes] using hn

/-- Payload byte `i` of a frame is lane `i` of OUT_DATA, or FILL. -/
theorem getElem?_payload (oe : Bool) {n : Len} (s : State) {i : Nat} (hi : i < Config.lanes) (hin : i < n.toNat) :
    (if oe then outBytes s n else fillers n)[i]? = some (if oe then s.port.outData[i] else fill) := by
  cases oe with
  | false => simp [fillers, hin, fill]
  | true => simp [outBytes, hin, hi]

/-- A built frame is offered whole: the command byte, then the payload. -/
theorem xtx_buildFrame (p : FrameParams) (s : State) :
    (s.buildFrame p).xtx = some (p.cmd :: if p.oe then outBytes s p.n else fillers p.n) := by
  have hread : readBytes (loadTx s.txbuf s.port.outData p) p.n.toNat =
      some (p.cmd :: if p.oe then outBytes s p.n else fillers p.n) := by
    rw [readBytes_eq_some _ _ (len_le_lanes p.n)]
    refine ⟨by rw [List.length_cons, length_payload], fun i hi hin => ?_⟩
    cases i with
    | zero => simp [getElem_loadTx]
    | succ i => simp [getElem_loadTx, hin, getElem?_payload p.oe s (show i < Config.lanes by omega) hin]
  exact hread

/-- XLEN while a frame of length N is latched is N + 1. -/
theorem xlen_of_len {s : State} {n : Len} (hl : s.len = some n) : s.xlen = some (BitVec.ofNat 7 (n.toNat + 1)) := by
  rw [State.xlen, hl, Option.map_some, Option.some_inj]
  apply BitVec.eq_of_toNat_eq
  simp

/-- The accepting half of ACCEPT builds the frame its parameters ask for, and changes nothing else. -/
theorem frameBuilt_buildFrame (p : FrameParams) (s : State) :
    FrameBuilt s (s.buildFrame p) p.cmd p.n (if p.oe then outBytes s p.n else fillers p.n) p.ie := by
  refine ⟨rfl, rfl, rfl, rfl, xtx_buildFrame p s, ?_, length_payload p.oe p.n s, ?_, rfl, rfl, rfl, ⟨rfl, rfl, rfl⟩,
    rfl, rfl⟩
  · rw [length_payload]
    exact xlen_of_len rfl
  · intro i hi hin
    rw [State.buildFrame_txbuf, getElem_loadTx, dif_neg (by omega), if_neg (by omega)]

/-! ### The answer to the SIL's result (R136 to R139) -/

/-- The response latch COMPLETE writes delivers the status byte and the inbound bytes. -/
theorem okResponse_okLatch (xrx : Vector Byte (Config.lanes + 1)) (n : Len) (ie : Bool) :
    OkResponse (okLatch xrx[0] ((xrx.toList.take (n.toNat + 1)).tail) n ie) xrx n ie :=
  ⟨rfl, rfl, rfl, rfl, rfl, rfl, getElem_okLatch_inBytes xrx n ie⟩

/-- Wherever LEN and IN_EN are latched, COMPLETE answers either result of the SIL. -/
theorem answersResult_of_latched {t : State} {n : Len} {ie : Bool} (hl : t.len = some n)
    (hn : n.toNat ≤ t.cfg.nMax) (hi : t.inEn = some ie) : AnswersResult t n ie :=
  ⟨fun xrx => ⟨_, _, completeOk_of_frame (s := { t with ctrl := .wait }) xrx hl hn hi, rfl, rfl,
    okResponse_okLatch xrx n ie⟩, fun _ => rfl⟩

/-! ### A request as one transaction -/

/-- A request whose checks pass, and whose length N_MAX admits, is the transaction of its frame parameters. -/
theorem performs_of_exec_eq_accept {i : Instr} {checks : List (Option Cause)} {p : FrameParams} {s : State}
    (hexec : exec i s = accept checks p s) (hs : s.acceptReady = true) (hchecks : firstFailure checks = none)
    (hn : p.n.toNat ≤ s.cfg.nMax) :
    Performs i s p.cmd p.n (if p.oe then outBytes s p.n else fillers p.n) p.ie :=
  ⟨s.buildFrame p, hexec.trans (accept_pass hs hchecks), frameBuilt_buildFrame p s,
    answersResult_of_latched (t := s.buildFrame p) rfl hn rfl⟩

/-- A request that fails a check is rejected with the cause of its first failure. -/
theorem rejects_of_exec_eq_accept {i : Instr} {checks : List (Option Cause)} {p : FrameParams} {s : State} {c : Cause}
    (hexec : exec i s = accept checks p s) (hs : s.acceptReady = true) (hchecks : firstFailure checks = some c) :
    Rejects i s c :=
  ⟨s.precondFail c, hexec.trans (accept_fail hs hchecks), rfl⟩

/-- The length check fails with LENGTH_RANGE above N_MAX. -/
theorem checkLen_eq_lengthRange {c : Config.Params} {n : Len} (h : c.nMax < n.toNat) :
    checkLen c n = some .lengthRange := if_pos h

/-- Settles O24: the length check is TRANSCEIVE's only one; where it passes the request is the transaction of its own
fields, and where it fails it is rejected. -/
theorem transceiveTransaction : Obligations.TransceiveTransaction := by
  refine ⟨fun w => (Encoding.reqOp_eq_iff w 0xF).1, fun cmd n oe ie s hs => ⟨fun hn => ?_, fun hn => ?_⟩⟩
  · have hcheck : firstFailure [checkLen s.cfg n] = none := by simp [(checkLen_eq_none s.cfg n).2 hn]
    exact performs_of_exec_eq_accept (exec_transceive cmd n oe ie s) hs hcheck hn
  · have hcheck : firstFailure [checkLen s.cfg n] = some .lengthRange := by simp [checkLen_eq_lengthRange hn]
    exact rejects_of_exec_eq_accept (exec_transceive cmd n oe ie s) hs hcheck

/-! ### HANDOFF (R135) -/

/-- A step in ISSUE with XREQ_READY high is HANDOFF. -/
theorem step_handoff {s u : State} (hr : s.port.rst = false) (hc : s.ctrl = .issue) (hv : s.port.xreqReady = true)
    (h : handoff s = .next u) : step s = .next (u.advance false) := by
  rw [step_issue hr hc, if_pos hv, h, onNext_next]

/-- Positions 0..n that each hold a value can be read. -/
theorem exists_readBytes_of_filledTo {buf : Vector (Option Byte) (Config.lanes + 1)} {n : Nat} (hn : n ≤ Config.lanes)
    (h : FilledTo buf n) : ∃ frame, readBytes buf n = some frame := by
  have hsome : ∀ i : Fin (n + 1), buf[i.val].isSome := fun i => by
    rw [h i.val (by omega), decide_eq_true_eq]
    omega
  refine ⟨List.ofFn fun i : Fin (n + 1) => buf[i.val].get (hsome i), ?_⟩
  rw [readBytes_eq_some _ _ hn]
  refine ⟨List.length_ofFn, fun i hi hin => ?_⟩
  rw [List.getElem?_ofFn, dif_pos (Nat.lt_succ_of_le hin), Option.some_get]

/-- Settles O28: a latched frame can be read whole, and what HANDOFF hands over is what it reads. -/
theorem handoffGivesTheWholeFrame : Obligations.HandoffGivesTheWholeFrame := by
  intro s n hr hc hv hframe hl
  obtain ⟨cmd, m, ie, hcmd, hm, hmax, -, hfilled, hhead⟩ := hframe
  obtain rfl : m = n := Option.some_inj.1 (hm.symm.trans hl)
  have hlanes : m.toNat ≤ Config.lanes := len_le_lanes m
  obtain ⟨frame, hread⟩ := exists_readBytes_of_filledTo hlanes hfilled
  obtain ⟨hlength, hbytes⟩ := (readBytes_eq_some _ _ hlanes _).1 hread
  have hxtx : s.xtx = some frame := by simp only [State.xtx, hl, hread]
  have hfirst : frame.head? = s.cmd := by
    rw [List.head?_eq_getElem?, ← hbytes 0 (by omega) (by omega), hhead, hcmd]
  exact ⟨_, frame, step_handoff hr hc hv (handoff_of_frame hl hmax hread), hxtx, hlength, hfirst, hbytes,
    xlen_of_len hl, rfl, rfl, rfl, sameRegisters_advance false _⟩

/-! ### COMPLETE with `ok` (R136 to R139) -/

/-- A step in WAIT with XRSP_VALID high is COMPLETE with the result on the SIL port. -/
theorem step_complete {s u : State} (hr : s.port.rst = false) (hc : s.ctrl = .wait) (hv : s.port.xrspValid = true)
    (h : complete (silResult s.port) s = .next u) : step s = .next (u.advance false) := by
  rw [step_wait hr hc, if_pos hv, h, onNext_next]

/-- XRSP_ERR low means the result is `ok` with the bytes of XRX. -/
theorem silResult_ok {p : Config.Inputs} (h : p.xrspErr = false) : silResult p = .ok p.xrx := by
  simp [silResult, h]

/-- Settles O29: COMPLETE of the latched LEN and IN_EN writes the loaded RXBUF and the `ok` latch. -/
theorem completeOkDeliversTheBytes : Obligations.CompleteOkDeliversTheBytes := by
  intro s n ie hr hc hv herr hl hn hi
  have hcomplete : complete (silResult s.port) s = completeOk s.port.xrx s := by rw [silResult_ok herr]; rfl
  exact ⟨_, _, step_complete hr hc hv (hcomplete.trans (completeOk_of_frame s.port.xrx hl hn hi)), rfl, rfl,
    okResponse_okLatch s.port.xrx n ie, getElem_loadRx s.rxbuf s.port.xrx n, sameRegisters_advance false _, rfl, rfl⟩

/-! ### DELIVER (R140) -/

/-- A step in RESP with RSP_READY high is DELIVER. -/
theorem step_deliver {s u : State} (hr : s.port.rst = false) (hc : s.ctrl = .resp) (hv : s.port.rspReady = true)
    (h : deliver s = .next u) : step s = .next (u.advance false) := by
  rw [step_resp hr hc, if_pos hv, h, onNext_next]

/-- DELIVER of a latched response. -/
theorem deliver_of_response {s : State} {r : ResponseLatch} (h : s.rsp = some r) :
    deliver s = .next { s.toIdle with taken := s.taken ++ [responseOf r] } := by
  rw [deliver, h, withValue_some]

/-- Settles O31: the requester takes the record of the response latch, and the rest is the IDLE state R29 describes. -/
theorem deliverTakesTheResponse : Obligations.DeliverTakesTheResponse := by
  intro s r hr hc hv hrsp
  exact ⟨_, step_deliver hr hc hv (deliver_of_response hrsp), rfl, ⟨rfl, rfl, rfl, rfl, rfl, rfl⟩, rfl, rfl⟩

end Sys2Proof.Proofs.TransactionFramer
end

section
/-! PROOFS, family 42_operations.md. Register access (R162, R163), payload width (R169), status poll (R172), the reserved
OP values (R173), and what can fail inside the caller contract (R174). -/

namespace Sys2Proof.Proofs.Operations

open Sys2Proof Sys2Proof.Machine Sys2Proof.Safety Sys2Proof.Proofs.Encoding Sys2Proof.Proofs.TransactionFramer

/-! ### Operations with an operand and a length (R160, R193) -/

section Fields
variable {i : Instr} {s : State} {operandCheck : Option Cause} {cmd : Byte} {n : Len} {oe ie : Bool}

/-- An operation that checks its operand and then its length is the transaction of its frame parameters where both pass,
and is rejected with the cause of the first that fails. -/
theorem transaction_of_operand_and_length
    (hexec : exec i s = accept [operandCheck, checkLen s.cfg n] ⟨cmd, n, oe, ie⟩ s) (hs : s.acceptReady = true) :
    (operandCheck = none → n.toNat ≤ s.cfg.nMax →
      Performs i s cmd n (if oe then outBytes s n else fillers n) ie) ∧
    (∀ c, operandCheck = some c → Rejects i s c) ∧
    (operandCheck = none → s.cfg.nMax < n.toNat → Rejects i s .lengthRange) := by
  refine ⟨fun hd hn => ?_, fun c hd => ?_, fun hd hn => ?_⟩
  · exact performs_of_exec_eq_accept hexec hs (by simp [hd, (checkLen_eq_none s.cfg n).2 hn]) hn
  · exact rejects_of_exec_eq_accept hexec hs (by simp [hd])
  · exact rejects_of_exec_eq_accept hexec hs (by simp [hd, checkLen_eq_lengthRange hn])

/-! ### Register access (R162, R163) -/

/-- The address check fails with OPERAND_RANGE above REG_ADDR_MAX. -/
theorem checkRegAddr_eq_operandRange {addr : Byte} (h : Config.regAddrMax < addr.toNat) :
    checkRegAddr addr = some .operandRange := if_pos h

/-- A register access over all its operands: the ranges of the address and of the length decide. -/
theorem registerAccess_transaction {addr : Byte}
    (hexec : exec i s = accept [checkRegAddr addr, checkLen s.cfg n] ⟨cmd, n, oe, ie⟩ s) (hs : s.acceptReady = true) :
    (addr.toNat ≤ Config.regAddrMax → n.toNat ≤ s.cfg.nMax →
      Performs i s cmd n (if oe then outBytes s n else fillers n) ie) ∧
    (Config.regAddrMax < addr.toNat → Rejects i s .operandRange) ∧
    (addr.toNat ≤ Config.regAddrMax → s.cfg.nMax < n.toNat → Rejects i s .lengthRange) := by
  obtain ⟨hperforms, hoperand, hlength⟩ := transaction_of_operand_and_length hexec hs
  exact ⟨fun ha => hperforms ((checkRegAddr_eq_none addr).2 ha),
    fun ha => hoperand _ (checkRegAddr_eq_operandRange ha),
    fun ha => hlength ((checkRegAddr_eq_none addr).2 ha)⟩

end Fields

/-- Settles O16: R_REGISTER is a register access whose command byte is 0x00 with the address in its field. -/
theorem readRegisterTransaction : Obligations.ReadRegisterTransaction := by
  refine ⟨fun w => (reqOp_eq_iff w 0x0).1, fun addr n s hs => ?_⟩
  have hcmd : compose s.cfg.opc .rRegister addr = 0x00 ||| addr &&& 0x1F := compose_address s.cfg.opc addr rfl
  rw [← hcmd]
  exact registerAccess_transaction (exec_rRegister addr n s) hs

/-- Settles O17: W_REGISTER is a register access whose command byte is 0x20 with the address in its field. -/
theorem writeRegisterTransaction : Obligations.WriteRegisterTransaction := by
  refine ⟨fun w => (reqOp_eq_iff w 0x1).1, fun addr n s hs => ?_⟩
  have hcmd : compose s.cfg.opc .wRegister addr = 0x20 ||| addr &&& 0x1F := compose_address s.cfg.opc addr rfl
  rw [← hcmd]
  exact registerAccess_transaction (exec_wRegister addr n s) hs

/-! ### Payload width and status poll (R169, R172) -/

/-- Settles O21: R_RX_PL_WID checks nothing, and the one byte of its payload is admitted by every N_MAX of R7. -/
theorem readPayloadWidthTransaction : Obligations.ReadPayloadWidthTransaction :=
  ⟨fun w => (reqOp_eq_iff w 0x7).1, fun s hadm hs =>
    performs_of_exec_eq_accept (exec_rRxPlWid s) hs firstFailure_nil (one_le_nMax hadm)⟩

/-- Settles O23: NOP checks nothing, and its empty payload is admitted by every N_MAX. -/
theorem nopTransaction : Obligations.NopTransaction :=
  ⟨fun w => (reqOp_eq_iff w 0xA).1, fun s hs =>
    performs_of_exec_eq_accept (exec_nop s) hs firstFailure_nil (Nat.zero_le s.cfg.nMax)⟩

/-! ### Reserved OP values (R173) -/

/-- ACCEPT of a reserved OP value, where it can take place, rejects. -/
theorem acceptReserved_rejects {s : State} (hs : s.acceptReady = true) :
    acceptReserved s = .next (s.precondFail .reservedOp) := if_pos hs

/-- Check finds RESERVED_OP whatever the other fields of the word hold. -/
theorem checkReq_reserved (c : Config.Params) {w : Word} (hlo : 0xB ≤ (reqOp w).toNat) (hhi : (reqOp w).toNat ≤ 0xE) :
    checkReq c w = some .reservedOp := by
  have hop : (reqOp w).toNat ∈ [0xB, 0xC, 0xD, 0xE] := by
    simp only [List.mem_cons, List.not_mem_nil, or_false]
    omega
  exact if_pos hop

/-- The response word of a reserved OP value. -/
theorem rspWord_reservedOp : rspWord (precondLatch .reservedOp) = 0x00000600 := rfl

/-- Settles O25: the four instructions are the reserved ACCEPT, and Check gives every word its cause. -/
theorem reservedOpIsRejected : Obligations.ReservedOpIsRejected := by
  refine fun s hs => ⟨fun i hi => ?_, fun w hlo hhi => ?_⟩
  · have hexec : exec i s = acceptReserved s := by
      simp only [List.mem_cons, List.not_mem_nil, or_false] at hi
      obtain rfl | rfl | rfl | rfl := hi
      · exact exec_reservedB s
      · exact exec_reservedC s
      · exact exec_reservedD s
      · exact exec_reservedE s
    exact ⟨_, hexec.trans (acceptReserved_rejects hs), rfl⟩
  · have hexec : exec (decodeWord w) s = .next (s.precondFail .reservedOp) := by
      rw [exec_decodeWord w hs, checkReq_reserved s.cfg hlo hhi]
    exact ⟨_, hexec, rfl, _, rfl, rspWord_reservedOp⟩

/-! ### The caller contract (R174) -/

/-- The caller contract admits a field exactly where the machine's own check of it passes. -/
theorem regAddrAdmitted_iff (addr : Byte) : regAddrAdmitted addr = true ↔ checkRegAddr addr = none := by
  rw [checkRegAddr_eq_none, regAddrAdmitted, decide_eq_true_eq]

theorem pipeAdmitted_iff (c : Config.Params) (pipe : Byte) : pipeAdmitted c pipe = true ↔ checkPipe c pipe = none := by
  rw [checkPipe_eq_none, pipeAdmitted, decide_eq_true_eq]

theorem lengthAdmitted_iff (c : Config.Params) (n : Len) : lengthAdmitted c n = true ↔ checkLen c n = none := by
  rw [checkLen_eq_none, lengthAdmitted, decide_eq_true_eq]

/-- The operation `i` at `s` is one transaction, with some frame. -/
def PerformsSome (i : Instr) (s : State) : Prop := ∃ cmd n payload ie, Performs i s cmd n payload ie

section Fields
variable {i : Instr} {s : State} {operandCheck : Option Cause} {cmd : Byte} {n : Len} {oe ie : Bool}

/-- An operation that checks its operand and its length, inside both ranges. -/
theorem performsSome_of_operand_and_length
    (hexec : exec i s = accept [operandCheck, checkLen s.cfg n] ⟨cmd, n, oe, ie⟩ s) (hs : s.acceptReady = true)
    (hd : operandCheck = none) (hn : checkLen s.cfg n = none) : PerformsSome i s :=
  ⟨_, _, _, _, (transaction_of_operand_and_length hexec hs).1 hd ((checkLen_eq_none s.cfg n).1 hn)⟩

/-- An operation that checks its length only, inside its range. -/
theorem performsSome_of_length (hexec : exec i s = accept [checkLen s.cfg n] ⟨cmd, n, oe, ie⟩ s)
    (hs : s.acceptReady = true) (hn : checkLen s.cfg n = none) : PerformsSome i s :=
  ⟨_, _, _, _, performs_of_exec_eq_accept hexec hs (by simp [hn]) ((checkLen_eq_none s.cfg n).1 hn)⟩

/-- An operation that checks nothing and has a payload of at most one byte. -/
theorem performsSome_of_unchecked (hexec : exec i s = accept [] ⟨cmd, n, oe, ie⟩ s) (hs : s.acceptReady = true)
    (hadm : s.cfg.admissible = true) (hn : n.toNat ≤ 1) : PerformsSome i s :=
  ⟨_, _, _, _, performs_of_exec_eq_accept hexec hs firstFailure_nil (hn.trans (one_le_nMax hadm))⟩

end Fields

/-- A request inside the caller contract is one transaction: the contract holds exactly the checks its ACCEPT makes. -/
theorem performsSome_of_wellFormed {i : Instr} {s : State} (hadm : s.cfg.admissible = true)
    (hwf : i.wellFormed s.cfg = true) (hs : s.acceptReady = true) : PerformsSome i s := by
  cases i <;>
    simp only [Instr.wellFormed, Bool.and_eq_true, regAddrAdmitted_iff, pipeAdmitted_iff, lengthAdmitted_iff,
      Bool.false_eq_true] at hwf
  case rRegister addr n => exact performsSome_of_operand_and_length (exec_rRegister addr n s) hs hwf.1 hwf.2
  case wRegister addr n => exact performsSome_of_operand_and_length (exec_wRegister addr n s) hs hwf.1 hwf.2
  case rRxPayload n => exact performsSome_of_length (exec_rRxPayload n s) hs hwf
  case wTxPayload n => exact performsSome_of_length (exec_wTxPayload n s) hs hwf
  case flushTx => exact performsSome_of_unchecked (exec_flushTx s) hs hadm (by decide)
  case flushRx => exact performsSome_of_unchecked (exec_flushRx s) hs hadm (by decide)
  case reuseTxPl => exact performsSome_of_unchecked (exec_reuseTxPl s) hs hadm (by decide)
  case rRxPlWid => exact performsSome_of_unchecked (exec_rRxPlWid s) hs hadm (by decide)
  case wAckPayload pipe n => exact performsSome_of_operand_and_length (exec_wAckPayload pipe n s) hs hwf.1 hwf.2
  case wTxPayloadNoack n => exact performsSome_of_length (exec_wTxPayloadNoack n s) hs hwf
  case nop => exact performsSome_of_unchecked (exec_nop s) hs hadm (by decide)
  case transceive cmd n oe ie => exact performsSome_of_length (exec_transceive cmd n oe ie s) hs hwf

/-- Settles O12: the request is one transaction, and either result of the SIL ends it as `AnswersResult` says. -/
theorem contractRequestsFailOnlyOnTheBus : Obligations.ContractRequestsFailOnlyOnTheBus := by
  intro i s hadm hwf hs
  obtain ⟨cmd, n, payload, ie, t, hexec, ⟨hctrl, -⟩, hok, herr⟩ := performsSome_of_wellFormed hadm hwf hs
  refine ⟨t, hexec, hctrl, fun r => ?_⟩
  cases r with
  | ok xrx =>
    obtain ⟨u, l, hu, -, hl, hkind, -⟩ := hok xrx
    exact ⟨u, l, hu, hl, .inl ⟨hkind, xrx, rfl⟩⟩
  | err code => exact ⟨_, _, herr code, rfl, .inr ⟨rfl, rfl⟩⟩

end Sys2Proof.Proofs.Operations
end

section
/-! PROOFS, family 60_exceptions.md. The checks of ACCEPT and their order (R192, R193), COMPLETE with `err` (R195), and the
hang of a silent SIL (R199). -/

namespace Sys2Proof.Proofs.Exceptions

open Sys2Proof Sys2Proof.Machine Sys2Proof.Safety Sys2Proof.Proofs.Transitions Sys2Proof.Proofs.TransactionFramer

/-! ### The checks and their order (R192, R193) -/

/-- The OP value is one of the four reserved ones. -/
abbrev ReservedOp (w : Word) : Prop := 0xB ≤ (reqOp w).toNat ∧ (reqOp w).toNat ≤ 0xE

/-- The operation uses OPERAND, as a register address or as a pipe, and it is above its range. -/
abbrev BadOperand (c : Config.Params) (w : Word) : Prop :=
  ((reqOp w).toNat ≤ 0x1 ∧ Config.regAddrMax < (reqOperand w).toNat) ∨
    ((reqOp w).toNat = 0x8 ∧ c.pipeMax < (reqOperand w).toNat)

/-- The operation uses LEN. -/
abbrev UsesLen (w : Word) : Prop :=
  (reqOp w).toNat ≤ 0x3 ∨ (reqOp w).toNat = 0x8 ∨ (reqOp w).toNat = 0x9 ∨ (reqOp w).toNat = 0xF

/-- A reserved OP value uses no field. -/
theorem ReservedOp.uses_no_field {w : Word} (h : ReservedOp w) (c : Config.Params) : ¬ BadOperand c w ∧ ¬ UsesLen w := by
  omega

/-- Check is three tests in the order of R193, one for each cause: the two operand tests of R192 have one cause. -/
theorem checkReq_eq_tests (c : Config.Params) (w : Word) :
    checkReq c w =
      if ReservedOp w then some .reservedOp
      else if BadOperand c w then some .operandRange
      else if UsesLen w ∧ c.nMax < (reqLen w).toNat then some .lengthRange
      else none := by
  rw [checkReq, ← ite_or]
  refine if_congr ?_ rfl (if_congr ?_ rfl (if_congr ?_ rfl rfl)) <;>
    simp only [List.mem_cons, List.not_mem_nil, or_false] <;> omega

/-- Settles O13, by the test that decides: a cause holds at its own test, where the tests before it fail. -/
theorem checkPriority : Obligations.CheckPriority := by
  intro c w op badOperand usesLen
  change (_ ↔ ReservedOp w) ∧ (_ ↔ BadOperand c w) ∧ (_ ↔ UsesLen w ∧ ¬ BadOperand c w ∧ _)
  rw [checkReq_eq_tests]
  by_cases hreserved : ReservedOp w
  · obtain ⟨hoperand, hlen⟩ := hreserved.uses_no_field c
    rw [if_pos hreserved]
    exact ⟨iff_of_true rfl hreserved, iff_of_false nofun hoperand, iff_of_false nofun fun h => hlen h.1⟩
  rw [if_neg hreserved]
  by_cases hoperand : BadOperand c w
  · simp [hreserved, hoperand]
  · by_cases hlength : UsesLen w ∧ c.nMax < (reqLen w).toNat <;> simp [hreserved, hoperand, hlength]

/-! ### COMPLETE with `err` (R195) -/

/-- XRSP_ERR high means the result is `err` with XRSP_CODE. -/
theorem silResult_err {p : Config.Inputs} (h : p.xrspErr = true) : silResult p = .err p.xrspCode := by
  simp [silResult, h]

/-- Settles O30: COMPLETE of an `err` result is BusError, which reads no latch and writes the response latch alone. -/
theorem completeErrPassesTheCode : Obligations.CompleteErrPassesTheCode := by
  intro s hr hc hv herr
  have hcomplete : complete (silResult s.port) s = .next (s.busError s.port.xrspCode) := by rw [silResult_err herr]; rfl
  exact ⟨_, step_complete hr hc hv hcomplete, sameObservation_advance false _, sameRegisters_advance false _⟩

/-! ### A silent SIL (R199) -/

/-- Holding a request on the port leaves the signals that are not the requester's to what the environment drives. -/
theorem holdRequest_others (now next : Config.Inputs) (passed : Bool) :
    (holdRequest now next passed).rst = next.rst ∧ (holdRequest now next passed).xreqReady = next.xreqReady ∧
      (holdRequest now next passed).xrspValid = next.xrspValid := by
  unfold holdRequest
  split <;> exact ⟨rfl, rfl, rfl⟩

section Waiting
variable {awaited : Config.Inputs → Bool}

/-- Where the scenario's next `k` entries are entries of waiting, so are the signals of the next `k` steps after this one. -/
theorem waits_advance (hheld : ∀ now next, awaited (holdRequest now next false) = awaited next)
    {s : State} {k : Nat} (hk : k ≤ s.env.length) (hwaits : Waits awaited (s.env.take k)) :
    Waits awaited (((s.advance false).port :: (s.advance false).env).take k) := by
  cases k with
  | zero => simp [Waits]
  | succ k =>
    cases henv : s.env with
    | nil => simp [henv] at hk
    | cons d rest =>
      rw [henv, List.take_succ_cons] at hwaits
      have hd := hwaits d List.mem_cons_self
      have hport : (s.advance false).port = holdRequest s.port d false := by simp [State.nextDrive, henv]
      rw [hport, State.advance_env, henv, List.tail_cons, List.take_succ_cons]
      intro e he
      obtain rfl | he := List.mem_cons.1 he
      · exact ⟨(holdRequest_others _ _ _).1.trans hd.1, (hheld _ _).trans hd.2⟩
      · exact hwaits e (List.mem_cons_of_mem d he)

/-- A control state that every step keeps while its awaited signal is low is kept by any number of such steps, with every
register and the observation. -/
theorem run_waits {ctrl : Ctrl}
    (hstay : ∀ u : State, u.port.rst = false → u.ctrl = ctrl → awaited u.port = false → step u = .next (u.advance false))
    (hheld : ∀ now next, awaited (holdRequest now next false) = awaited next)
    (k : Nat) (s : State) (hc : s.ctrl = ctrl) (hk : k ≤ s.env.length + 1)
    (hwaits : Waits awaited ((s.port :: s.env).take k)) :
    ∃ t, Host.Core.run core k s = .next t ∧ SameRegisters s t ∧ SameObservation s t := by
  induction k generalizing s with
  | zero => exact ⟨s, run_zero s, ⟨rfl, rfl, rfl, rfl, rfl, rfl, rfl, rfl⟩, rfl, rfl⟩
  | succ k ih =>
    rw [List.take_succ_cons] at hwaits
    obtain ⟨hr, hv⟩ := hwaits s.port List.mem_cons_self
    have hrest : Waits awaited (s.env.take k) := fun e he => hwaits e (List.mem_cons_of_mem _ he)
    have hlength : k ≤ (s.advance false).env.length + 1 := by
      rw [State.advance_env, List.length_tail]
      omega
    obtain ⟨t, hrun, hregisters, hobservation⟩ :=
      ih (s.advance false) hc hlength (waits_advance hheld (Nat.le_of_succ_le_succ hk) hrest)
    exact ⟨t, (run_step (hstay s hr hc hv)).trans hrun, hregisters, hobservation⟩

end Waiting

/-- In ISSUE with XREQ_READY low the CPED waits. -/
theorem step_issue_waits (u : State) (hr : u.port.rst = false) (hc : u.ctrl = .issue) (hv : u.port.xreqReady = false) :
    step u = .next (u.advance false) := by
  simp [step_issue hr hc, hv]

/-- In WAIT with XRSP_VALID low the CPED waits. -/
theorem step_wait_waits (u : State) (hr : u.port.rst = false) (hc : u.ctrl = .wait) (hv : u.port.xrspValid = false) :
    step u = .next (u.advance false) := by
  simp [step_wait hr hc, hv]

/-- The outputs REQ_READY and RSP_VALID are low in ISSUE and in WAIT. -/
theorem ports_low_of_issue_or_wait {t : State} (h : t.ctrl = .issue ∨ t.ctrl = .wait) :
    t.reqReady = false ∧ t.rspValid = false := by
  obtain hc | hc := h <;> simp [State.reqReady, State.rspValid, hc]

/-- Settles O37: in ISSUE and in WAIT the run is one of waiting, and it ends in the control state it began in, where both
outputs are low. -/
theorem silentSilHangsTheCped : Obligations.SilentSilHangsTheCped := by
  intro k s hk hrst hsilent
  have hrun : ∃ t, Host.Core.run core k s = .next t ∧ SameRegisters s t ∧ SameObservation s t := by
    obtain ⟨hc, hv⟩ | ⟨hc, hv⟩ := hsilent
    · exact run_waits (awaited := (·.xreqReady)) step_issue_waits (fun _ _ => (holdRequest_others _ _ _).2.1) k s hc hk
        fun e he => ⟨hrst e he, hv e he⟩
    · exact run_waits (awaited := (·.xrspValid)) step_wait_waits (fun _ _ => (holdRequest_others _ _ _).2.2) k s hc hk
        fun e he => ⟨hrst e he, hv e he⟩
  obtain ⟨t, hrun, hregisters, hobservation⟩ := hrun
  have hctrl : t.ctrl = s.ctrl := hregisters.2.1
  have hports : t.reqReady = false ∧ t.rspValid = false :=
    ports_low_of_issue_or_wait (hctrl ▸ hsilent.imp And.left And.left)
  exact ⟨t, hrun, hregisters, hobservation, hports⟩

end Sys2Proof.Proofs.Exceptions
end

section
/-! PROOFS, family other: the request word round trip (30_encoding.md R70 to R77). -/

namespace Sys2Proof.Proofs.RoundTrip

open Sys2Proof Sys2Proof.Machine Sys2Proof.Proofs.Encoding

/-- The decoder reads a word built from fields as the row of its OP value, with those fields. -/
theorem decodeWord_buildReq (op : BitVec 4) (operand : Byte) (len : Len) (outEn inEn : Bool) :
    decodeWord (buildReq op operand len outEn inEn) = operationOf op operand len outEn inEn := by
  rw [decodeWord_eq_operationOf, Laws.EncodedOp.reqOp_buildReq, reqOperand_buildReq, reqLen_buildReq,
    reqOutEn_buildReq, reqInEn_buildReq]

/-- Decoding undoes encoding: an instruction's word is built from its OP value and its operands, and the row of that OP
value takes exactly those operands. -/
theorem decodeWord_encode (i : Instr) : decodeWord (encode i) = i := by
  cases i <;> exact decodeWord_buildReq ..

/-- The table's numbering of 32 bits is the numbering of the word. -/
theorem decodeTableWord_toNat (w : Word) : decodeTableWord 32 w.toNat = some (decodeWord w) := by
  have hw : ¬ 2 ^ 32 ≤ w.toNat := Nat.not_le_of_lt w.isLt
  simp only [decodeTableWord, decodeBits, lt_irrefl, if_false, if_neg hw, BitVec.ofNat_toNat, BitVec.setWidth_eq]

/-- Settles O2: `decodeWord_encode`, and the same word read through the table's numbering. -/
theorem decodeOfEncodeIsTheInstruction : Obligations.DecodeOfEncodeIsTheInstruction := fun i =>
  ⟨decodeWord_encode i, by rw [decodeTableWord_toNat, decodeWord_encode]⟩

/-- Settles O1: each of the ten words is closed, so the decoder runs on it. -/
theorem writtenRequestWordsDecode : Obligations.WrittenRequestWordsDecode := by
  unfold Obligations.WrittenRequestWordsDecode
  decide

end Sys2Proof.Proofs.RoundTrip
end

section
/-! PROOFS, family other: the invariant of every run. It holds at reset, every transition keeps it and none of them stops on
a state that meets it (10_state.md R22 to R31), and it leaves nothing of a transaction for the next one
(70_reset_and_hazards.md R234). -/

namespace Sys2Proof.Proofs.Invariant

open Sys2Proof Sys2Proof.Machine Sys2Proof.Safety Sys2Proof.Proofs.Transitions Sys2Proof.Proofs.Encoding
  Sys2Proof.Proofs.TransactionFramer

/-! ### What the invariant says in each control state -/

theorem latchesEmpty_of_idle {s : State} (hinv : StateInv s) (hc : s.ctrl = .idle) : LatchesEmpty s := by
  obtain ⟨-, h⟩ := hinv
  rwa [hc] at h

theorem frame_of_issue {s : State} (hinv : StateInv s) (hc : s.ctrl = .issue) :
    FrameLatched s ∧ s.rxbuf = noBytes ∧ s.rsp = none := by
  obtain ⟨-, h⟩ := hinv
  rwa [hc] at h

theorem frame_of_wait {s : State} (hinv : StateInv s) (hc : s.ctrl = .wait) :
    FrameLatched s ∧ s.rxbuf = noBytes ∧ s.rsp = none := by
  obtain ⟨-, h⟩ := hinv
  rwa [hc] at h

theorem response_of_resp {s : State} (hinv : StateInv s) (hc : s.ctrl = .resp) : ∃ r, s.rsp = some r := by
  obtain ⟨-, h⟩ := hinv
  rw [hc] at h
  obtain ⟨r, hr, -⟩ := h
  exact ⟨r, hr⟩

/-! ### The states the transitions leave -/

/-- The invariant speaks of no input signal. -/
theorem stateInv_advance {s : State} (b : Bool) (hinv : StateInv s) : StateInv (s.advance b) := hinv

/-- The buffers positions 0..n of which are written hold values exactly there. -/
theorem filledTo_loadTx (out : Vector Byte Config.lanes) (p : FrameParams) :
    FilledTo (loadTx noBytes out p) p.n.toNat := by
  intro i hi
  rw [getElem_loadTx, getElem_noBytes]
  by_cases h0 : i = 0
  · simp [h0]
  · by_cases hn : i ≤ p.n.toNat <;> simp [h0, hn]

theorem filledTo_loadRx (xrx : Vector Byte (Config.lanes + 1)) (n : Len) :
    FilledTo (loadRx noBytes xrx n) n.toNat := by
  intro i hi
  rw [getElem_loadRx, getElem_noBytes]
  split_ifs with hn <;> simp [hn]

theorem stateInv_toIdle {s : State} (hadm : s.cfg.admissible = true) : StateInv s.toIdle :=
  ⟨hadm, rfl, rfl, rfl, rfl, rfl, rfl⟩

/-- An accepted request leaves its frame latched, in latches that were empty. -/
theorem stateInv_buildFrame {s : State} {p : FrameParams} (hadm : s.cfg.admissible = true) (hempty : LatchesEmpty s)
    (hn : p.n.toNat ≤ s.cfg.nMax) : StateInv (s.buildFrame p) := by
  obtain ⟨-, -, -, htx, hrx, hrsp⟩ := hempty
  have hfilled : FilledTo (s.buildFrame p).txbuf p.n.toNat := by
    rw [State.buildFrame_txbuf, htx]
    exact filledTo_loadTx _ p
  have hfirst : (s.buildFrame p).txbuf[0] = some p.cmd := by rw [State.buildFrame_txbuf, getElem_loadTx, dif_pos rfl]
  exact ⟨hadm, ⟨p.cmd, p.n, p.ie, rfl, rfl, hn, rfl, hfilled, hfirst⟩, hrx, hrsp⟩

/-- A failure's latch: no status byte, no inbound bytes. -/
theorem responseConsistent_precondLatch (c : Config.Params) (cause : Cause) :
    ResponseConsistent c (precondLatch cause) :=
  ⟨fun _ => ⟨rfl, rfl⟩, iff_of_true rfl rfl, fun _ => rfl, Nat.zero_le _, fun _ _ _ => by simp [precondLatch, noInBytes],
    fun _ => rfl⟩

theorem responseConsistent_busErrLatch (c : Config.Params) (code : BitVec Config.errWidth) :
    ResponseConsistent c (busErrLatch code) :=
  ⟨fun _ => ⟨rfl, rfl⟩, iff_of_false nofun nofun, fun _ => rfl, Nat.zero_le _,
    fun _ _ _ => by simp [busErrLatch, noInBytes], fun h => absurd rfl h⟩

/-- The latch of a completed exchange: IN_LEN is N or 0, and the inbound lanes at and above it are 0. -/
theorem responseConsistent_okLatch (c : Config.Params) (xrx : Vector Byte (Config.lanes + 1)) {n : Len} (ie : Bool)
    (hn : n.toNat ≤ c.nMax) :
    ResponseConsistent c (okLatch xrx[0] ((xrx.toList.take (n.toNat + 1)).tail) n ie) := by
  refine ⟨fun h => absurd rfl h, iff_of_false nofun nofun, ?_, ?_, ?_, fun _ => rfl⟩
  · rintro (rfl : ie = false)
    rfl
  · cases ie with
    | false => exact Nat.zero_le _
    | true => exact hn
  · intro i hi hle
    rw [getElem_okLatch_inBytes]
    refine if_neg ?_
    rintro ⟨rfl, hlt⟩
    exact Nat.not_lt_of_le hle hlt

theorem stateInv_precondFail {s : State} (c : Cause) (hadm : s.cfg.admissible = true) (hempty : LatchesEmpty s) :
    StateInv (s.precondFail c) := by
  obtain ⟨hcmd, hlen, hie, htx, hrx, -⟩ := hempty
  exact ⟨hadm, _, rfl, responseConsistent_precondLatch _ c, hcmd, hlen, hie, htx, hrx⟩

theorem stateInv_busError {s : State} (code : BitVec Config.errWidth) (hadm : s.cfg.admissible = true)
    (hframe : FrameLatched s) (hrx : s.rxbuf = noBytes) : StateInv (s.busError code) :=
  ⟨hadm, _, rfl, responseConsistent_busErrLatch _ code, hframe, hrx⟩

/-- COMPLETE with `ok` leaves the frame latched, RXBUF filled to LEN, and a response that agrees with both. -/
theorem stateInv_completed {s : State} {n : Len} {ie : Bool} (xrx : Vector Byte (Config.lanes + 1))
    (hadm : s.cfg.admissible = true) (hframe : FrameLatched s) (hrx : s.rxbuf = noBytes) (hl : s.len = some n)
    (hn : n.toNat ≤ s.cfg.nMax) (hi : s.inEn = some ie) :
    StateInv
      { s with
        rxbuf := loadRx s.rxbuf xrx n
        rsp := some (okLatch xrx[0] ((xrx.toList.take (n.toNat + 1)).tail) n ie)
        ctrl := .resp } := by
  refine ⟨hadm, _, rfl, responseConsistent_okLatch _ xrx ie hn, hframe, ?_, hi, ?_⟩
  · rintro m (hm : s.len = some m)
    obtain rfl : n = m := Option.some_inj.1 (hl.symm.trans hm)
    rw [hrx]
    exact filledTo_loadRx xrx n
  · rintro (rfl : ie = true)
    exact hl

/-! ### Every transition answers, and keeps the invariant -/

/-- A step from this state answers a next state that meets the invariant. -/
def StepKeepsInv (s : State) : Prop := ∃ t, step s = .next t ∧ StateInv t

section Transitions
variable {s : State} (hinv : StateInv s) (hr : s.port.rst = false)
include hinv hr

theorem stepKeepsInv_accept (hc : s.ctrl = .idle) (hv : s.port.reqValid = true) : StepKeepsInv s := by
  have hs : s.acceptReady = true := s.acceptReady_iff.2 ⟨hr, hc⟩
  have hempty := latchesEmpty_of_idle hinv hc
  rw [StepKeepsInv, step_offered hs hv]
  obtain ⟨hwait, -⟩ | ⟨p, -, hn, hexec⟩ | ⟨c, -, hexec⟩ := exec_cases (decodeWord s.port.req) s
  · simp [hs] at hwait
  · rw [hexec]
    exact ⟨_, rfl, stateInv_advance true (stateInv_buildFrame hinv.1 hempty (hn hinv.1))⟩
  · rw [hexec]
    exact ⟨_, rfl, stateInv_advance true (stateInv_precondFail c hinv.1 hempty)⟩

theorem stepKeepsInv_handoff (hc : s.ctrl = .issue) (hv : s.port.xreqReady = true) : StepKeepsInv s := by
  obtain ⟨hframe, hrx, hrsp⟩ := frame_of_issue hinv hc
  have ⟨_, n, _, _, hl, hn, _, hfilled, _⟩ := hframe
  obtain ⟨frame, hread⟩ := exists_readBytes_of_filledTo (len_le_lanes n) hfilled
  exact ⟨_, step_handoff hr hc hv (handoff_of_frame hl hn hread), hinv.1, hframe, hrx, hrsp⟩

theorem stepKeepsInv_complete (hc : s.ctrl = .wait) (hv : s.port.xrspValid = true) : StepKeepsInv s := by
  obtain ⟨hframe, hrx, -⟩ := frame_of_wait hinv hc
  have ⟨_, n, ie, _, hl, hn, hi, _, _⟩ := hframe
  cases hresult : silResult s.port with
  | ok xrx =>
    have hcomplete := (congrArg (complete · s) hresult).trans (completeOk_of_frame xrx hl hn hi)
    exact ⟨_, step_complete hr hc hv hcomplete, stateInv_advance false (stateInv_completed xrx hinv.1 hframe hrx hl hn hi)⟩
  | err code =>
    have hcomplete : complete (silResult s.port) s = .next (s.busError code) := congrArg (complete · s) hresult
    exact ⟨_, step_complete hr hc hv hcomplete, stateInv_advance false (stateInv_busError code hinv.1 hframe hrx)⟩

theorem stepKeepsInv_deliver (hc : s.ctrl = .resp) (hv : s.port.rspReady = true) : StepKeepsInv s := by
  obtain ⟨r, hrsp⟩ := response_of_resp hinv hc
  exact ⟨_, step_deliver hr hc hv (deliver_of_response hrsp), stateInv_toIdle (s := s) hinv.1⟩

end Transitions

/-- Settles O45, by the control state: either its transition takes place, or the CPED waits and keeps every register. -/
theorem stepNeverStopsAndKeepsTheInvariant : Obligations.StepNeverStopsAndKeepsTheInvariant := by
  intro s hinv
  change StepKeepsInv s
  have hwaits : StateInv (s.advance false) := stateInv_advance false hinv
  rcases hr : s.port.rst with _ | _
  · rcases hc : s.ctrl with _ | _ | _ | _
    · rcases hv : s.port.reqValid with _ | _
      · exact ⟨_, by simp [step_idle hr hc, hv], hwaits⟩
      · exact stepKeepsInv_accept hinv hr hc hv
    · rcases hv : s.port.xreqReady with _ | _
      · exact ⟨_, by simp [step_issue hr hc, hv], hwaits⟩
      · exact stepKeepsInv_handoff hinv hr hc hv
    · rcases hv : s.port.xrspValid with _ | _
      · exact ⟨_, by simp [step_wait hr hc, hv], hwaits⟩
      · exact stepKeepsInv_complete hinv hr hc hv
    · rcases hv : s.port.rspReady with _ | _
      · exact ⟨_, by simp [step_resp hr hc, hv], hwaits⟩
      · exact stepKeepsInv_deliver hinv hr hc hv
  · exact ⟨_, step_reset hr, stateInv_advance false (stateInv_toIdle hinv.1)⟩

/-- The default parameters meet the constraints of 00_scope.md R7. -/
theorem admissible_params : params.admissible = true := by decide

/-- Settles O44: at reset the latches are the empty ones of `toIdle`, and the parameters the default ones. -/
theorem invariantAtReset : Obligations.InvariantAtReset := stateInv_toIdle (s := State.reset) admissible_params

/-! ### Nothing is left for the next transaction (R234) -/

/-- In IDLE with empty latches the registers hold nothing but the parameters. -/
theorem sameRegisters_of_latchesEmpty {s s' : State} (hc : s.ctrl = .idle) (hc' : s'.ctrl = .idle)
    (hcfg : s'.cfg = s.cfg) (h : LatchesEmpty s) (h' : LatchesEmpty s') : SameRegisters s s' := by
  obtain ⟨hcmd, hlen, hie, htx, hrx, hrsp⟩ := h
  obtain ⟨hcmd', hlen', hie', htx', hrx', hrsp'⟩ := h'
  exact ⟨hcfg, hc'.trans hc.symm, hcmd'.trans hcmd.symm, hlen'.trans hlen.symm, hie'.trans hie.symm,
    htx'.trans htx.symm, hrx'.trans hrx.symm, hrsp'.trans hrsp.symm⟩

/-- ACCEPT writes the registers from the registers, the request and OUT_DATA. -/
theorem sameRegisters_buildFrame {s s' : State} (p : FrameParams) (h : SameRegisters s s') (hport : s'.port = s.port) :
    SameRegisters (s.buildFrame p) (s'.buildFrame p) := by
  obtain ⟨hcfg, -, -, -, -, htx, hrx, hrsp⟩ := h
  exact ⟨hcfg, rfl, rfl, rfl, rfl, by rw [State.buildFrame_txbuf, State.buildFrame_txbuf, htx, hport], hrx, hrsp⟩

theorem sameRegisters_precondFail {s s' : State} (c : Cause) (h : SameRegisters s s') :
    SameRegisters (s.precondFail c) (s'.precondFail c) := by
  obtain ⟨hcfg, -, hcmd, hlen, hie, htx, hrx, -⟩ := h
  exact ⟨hcfg, rfl, hcmd, hlen, hie, htx, hrx, rfl⟩

/-- The registers a step in IDLE leaves: a function of the registers and the input signals. -/
def idleStep (s : State) : State :=
  if s.port.rst then s.toIdle
  else if s.port.reqValid then
    match checkReq s.cfg s.port.req with
    | some c => s.precondFail c
    | none => s.buildFrame (paramsReq s.cfg.opc s.port.req)
  else s

theorem step_idle_eq_idleStep {s : State} (hc : s.ctrl = .idle) : ∃ b, step s = .next ((idleStep s).advance b) := by
  rw [idleStep]
  rcases hr : s.port.rst with _ | _
  · rcases hv : s.port.reqValid with _ | _
    · exact ⟨false, by simp [step_idle hr hc, hv]⟩
    · have hs : s.acceptReady = true := s.acceptReady_iff.2 ⟨hr, hc⟩
      cases hcheck : checkReq s.cfg s.port.req with
      | none => exact ⟨true, step_offered_pass hs hv hcheck⟩
      | some c => exact ⟨true, step_offered_fail hs hv hcheck⟩
  · exact ⟨false, step_reset hr⟩

theorem sameRegisters_idleStep {s s' : State} (h : SameRegisters s s') (hport : s'.port = s.port) :
    SameRegisters (idleStep s) (idleStep s') := by
  have hcfg : s'.cfg = s.cfg := h.1
  simp only [idleStep, hport, hcfg]
  split_ifs with hr hv
  · exact ⟨hcfg, rfl, rfl, rfl, rfl, rfl, rfl, rfl⟩
  · cases checkReq s.cfg s.port.req with
    | none => exact sameRegisters_buildFrame _ h hport
    | some c => exact sameRegisters_precondFail c h
  · exact h

/-- Settles O41: IDLE keeps no latch, so the two states have the same registers, and a step in IDLE looks at nothing else
but the input signals. -/
theorem nothingSurvivesATransaction : Obligations.NothingSurvivesATransaction := by
  intro s s' t t' hinv hinv' hc hc' hcfg hport hstep hstep'
  have hsame : SameRegisters s s' :=
    sameRegisters_of_latchesEmpty hc hc' hcfg (latchesEmpty_of_idle hinv hc) (latchesEmpty_of_idle hinv' hc')
  obtain ⟨b, hb⟩ := step_idle_eq_idleStep hc
  obtain ⟨b', hb'⟩ := step_idle_eq_idleStep hc'
  cases hstep.symm.trans hb
  cases hstep'.symm.trans hb'
  exact sameRegisters_idleStep hsame hport

end Sys2Proof.Proofs.Invariant
end

section
/-! PROOFS, family other: the command byte of register access (40_command_encoding.md R106) and the default table, the
caller contract against Check (60_exceptions.md R192), ACCEPT against Check and Params (41_transaction_framer.md R131),
and the transactions of payload access and FIFO control (42_operations.md R161, R164 to R168, R170, R171). -/

namespace Sys2Proof.Proofs.Requests

open Sys2Proof Sys2Proof.Machine Sys2Proof.Safety Sys2Proof.Proofs.Encoding Sys2Proof.Proofs.TransactionFramer
  Sys2Proof.Proofs.Operations Sys2Proof.Proofs.Exceptions

/-! ### The command byte (R101, R106) -/

/-- A register address stands unchanged in the five bits of its field. -/
theorem and_low5_of_le {a : Byte} (h : a.toNat ≤ 0x1D) : a &&& 0x1F = a := by
  apply BitVec.eq_of_toNat_eq
  rw [BitVec.toNat_and]
  exact Nat.and_two_pow_sub_one_of_lt_two_pow (n := 5) (by omega)

/-- The read command of an address is the address. -/
theorem compose_rRegister (t : Config.OpcTable) {a : Byte} (h : a.toNat ≤ 0x1D) : compose t .rRegister a = a := by
  rw [compose_address t a rfl, and_low5_of_le h]
  exact BitVec.zero_or

/-- The write command of an address is 0x20 plus the address: the base has 0 in the address field. -/
theorem compose_wRegister (t : Config.OpcTable) {a : Byte} (h : a.toNat ≤ 0x1D) : compose t .wRegister a = 0x20 + a := by
  have hbase : (0x20 : Byte) &&& 0x1F = 0#8 := by decide
  obtain ⟨hadd, -⟩ := or_field a hbase
  rw [and_low5_of_le h] at hadd
  rw [compose_address t a rfl, and_low5_of_le h]
  exact hadd

/-- Settles O10: the commands are `a` and `0x20 + a`, so read commands lie below 0x20 and write commands above. -/
theorem registerCommandBytesDoNotCollide : Obligations.RegisterCommandBytesDoNotCollide := by
  intro t a b ha hb
  rw [compose_rRegister t ha, compose_wRegister t ha, compose_rRegister t hb, compose_wRegister t hb]
  have hdisjoint : a ≠ 0x20 + b := by bv_omega
  exact ⟨rfl, rfl, hdisjoint, id, (BitVec.add_right_inj 0x20).1⟩

/-- Settles O8: the parameters of the state after reset are closed values. -/
theorem defaultOpcodeTable : Obligations.DefaultOpcodeTable := by
  unfold Obligations.DefaultOpcodeTable
  decide

/-! ### The caller contract (R72, R73, R192) -/

/-- Check finds no failure where none of its three tests applies. -/
theorem checkReq_eq_none_iff (c : Config.Params) (w : Word) :
    checkReq c w = none ↔ ¬ ReservedOp w ∧ ¬ BadOperand c w ∧ ¬ (UsesLen w ∧ c.nMax < (reqLen w).toNat) := by
  rw [checkReq_eq_tests]
  split_ifs <;> simp [*]

/-- Settles O11, by the row of the word: in each the contract asks for the ranges of exactly the fields Check tests. -/
theorem contractIsWhatCheckAdmits : Obligations.ContractIsWhatCheckAdmits := by
  intro c w
  rw [checkReq_eq_none_iff]
  rcases decodeWord_cases w with ⟨h, e⟩ | ⟨h, e⟩ | ⟨h, e⟩ | ⟨h, e⟩ | ⟨h, e⟩ | ⟨h, e⟩ | ⟨h, e⟩ | ⟨h, e⟩ | ⟨h, e⟩ |
    ⟨h, e⟩ | ⟨h, e⟩ | ⟨h, e⟩ | ⟨h, e⟩ | ⟨h, e⟩ | ⟨h, e⟩ | ⟨h, e⟩ <;>
    simp [e, h, ReservedOp, BadOperand, UsesLen, Instr.wellFormed, regAddrAdmitted, pipeAdmitted, lengthAdmitted]

/-! ### ACCEPT of a raw request word (R131, R160, R161) -/

/-- ACCEPT builds the frame of Params' row where Check finds no failure. -/
theorem exec_decodeWord_pass {w : Word} {s : State} (hs : s.acceptReady = true) (hc : checkReq s.cfg w = none) :
    exec (decodeWord w) s = .next (s.buildFrame (paramsReq s.cfg.opc w)) := by
  rw [exec_decodeWord w hs, hc]

/-- ACCEPT rejects with the cause Check finds. -/
theorem exec_decodeWord_fail {w : Word} {s : State} {c : Cause} (hs : s.acceptReady = true)
    (hc : checkReq s.cfg w = some c) : exec (decodeWord w) s = .next (s.precondFail c) := by
  rw [exec_decodeWord w hs, hc]

/-- Where ACCEPT cannot take place, the request waits. -/
theorem exec_waits (i : Instr) {s : State} (hs : s.acceptReady = false) : exec i s = .next s := by
  obtain ⟨-, h⟩ | ⟨p, h, -⟩ | ⟨c, h, -⟩ := exec_cases i s
  · exact h
  · simp [hs] at h
  · simp [hs] at h

/-- A request that passes Check asks for a frame whose length N_MAX admits. -/
theorem length_paramsReq_le {w : Word} {s : State} (hadm : s.cfg.admissible = true) (hs : s.acceptReady = true)
    (hc : checkReq s.cfg w = none) : (paramsReq s.cfg.opc w).n.toNat ≤ s.cfg.nMax := by
  have hpass := exec_decodeWord_pass hs hc
  obtain ⟨hwait, -⟩ | ⟨p, -, hn, hexec⟩ | ⟨c, -, hexec⟩ := exec_cases (decodeWord w) s
  · simp [hs] at hwait
  · have hlen : some p.n = some (paramsReq s.cfg.opc w).n :=
      congrArg State.len (Host.Outcome.next.inj (hexec.symm.trans hpass))
    rw [← Option.some_inj.1 hlen]
    exact hn hadm
  · have hctrl : Ctrl.resp = Ctrl.issue := congrArg State.ctrl (Host.Outcome.next.inj (hexec.symm.trans hpass))
    cases hctrl

/-- Settles O14: `exec_decodeWord` gives both halves of ACCEPT, and a step with a request offered is this ACCEPT. -/
theorem acceptFollowsCheckAndParams : Obligations.AcceptFollowsCheckAndParams := by
  intro w s hadm hs
  refine ⟨fun c hc => ⟨_, exec_decodeWord_fail hs hc, rfl⟩, fun hc => ?_, ?_⟩
  · exact ⟨_, exec_decodeWord_pass hs hc, frameBuilt_buildFrame _ s,
      answersResult_of_latched rfl (length_paramsReq_le hadm hs hc) rfl⟩
  · rintro hv rfl
    exact step_offered hs hv

/-- Settles O15: both ACCEPTs build the frame of Params' row, or both wait. -/
theorem operationIsItsTransceive : Obligations.OperationIsItsTransceive := by
  intro w s hadm _ hc
  rcases hs : s.acceptReady with _ | _
  · exact (exec_waits _ hs).trans (exec_waits _ hs).symm
  · have hcheck : firstFailure [checkLen s.cfg (paramsReq s.cfg.opc w).n] = none := by
      simp [(checkLen_eq_none _ _).2 (length_paramsReq_le hadm hs hc)]
    exact (exec_decodeWord_pass hs hc).trans ((exec_transceive ..).trans (accept_pass hs hcheck)).symm

/-! ### Payload access and FIFO control (R164 to R168, R170, R171) -/

section Fields
variable {i : Instr} {s : State} {cmd : Byte} {n : Len} {oe ie : Bool}

/-- An operation that checks its length only is the transaction of its frame parameters up to N_MAX, and is rejected above. -/
theorem transaction_of_length (hexec : exec i s = accept [checkLen s.cfg n] ⟨cmd, n, oe, ie⟩ s)
    (hs : s.acceptReady = true) :
    (n.toNat ≤ s.cfg.nMax → Performs i s cmd n (if oe then outBytes s n else fillers n) ie) ∧
    (s.cfg.nMax < n.toNat → Rejects i s .lengthRange) :=
  ⟨fun hn => performs_of_exec_eq_accept hexec hs (by simp [(checkLen_eq_none s.cfg n).2 hn]) hn,
    fun hn => rejects_of_exec_eq_accept hexec hs (by simp [checkLen_eq_lengthRange hn])⟩

/-- An operation without operand, length and payload is the transaction of its command byte alone. -/
theorem performs_command_alone (hexec : exec i s = accept [] ⟨cmd, 0, false, false⟩ s) (hs : s.acceptReady = true) :
    Performs i s cmd 0 [] false :=
  performs_of_exec_eq_accept hexec hs firstFailure_nil (Nat.zero_le s.cfg.nMax)

end Fields

/-- The pipe check fails with OPERAND_RANGE above PIPE_MAX. -/
theorem checkPipe_eq_operandRange {c : Config.Params} {pipe : Byte} (h : c.pipeMax < pipe.toNat) :
    checkPipe c pipe = some .operandRange := if_pos h

/-- Settles O18: R_RX_PAYLOAD checks its length only, and its payload is filler. -/
theorem readRxPayloadTransaction : Obligations.ReadRxPayloadTransaction :=
  ⟨fun w => (reqOp_eq_iff w 0x2).1, fun n s hs => transaction_of_length (exec_rRxPayload n s) hs⟩

/-- Settles O19: the two payload writes check their length only, and their payload is OUT_DATA. -/
theorem writeTxPayloadTransactions : Obligations.WriteTxPayloadTransactions := by
  refine ⟨fun w => ⟨(reqOp_eq_iff w 0x3).1, (reqOp_eq_iff w 0x9).1⟩, fun n s hs => ?_⟩
  obtain ⟨hperforms, hrejects⟩ := transaction_of_length (exec_wTxPayload n s) hs
  obtain ⟨hperforms', hrejects'⟩ := transaction_of_length (exec_wTxPayloadNoack n s) hs
  exact ⟨fun hn => ⟨hperforms hn, hperforms' hn⟩, fun hn => ⟨hrejects hn, hrejects' hn⟩⟩

/-- Settles O20: each FIFO control is its opcode alone. -/
theorem fifoControlTransactions : Obligations.FifoControlTransactions :=
  ⟨fun w => ⟨(reqOp_eq_iff w 0x4).1, (reqOp_eq_iff w 0x5).1, (reqOp_eq_iff w 0x6).1⟩, fun s hs =>
    ⟨performs_command_alone (exec_flushTx s) hs, performs_command_alone (exec_flushRx s) hs,
      performs_command_alone (exec_reuseTxPl s) hs⟩⟩

/-- Settles O22: W_ACK_PAYLOAD checks its pipe and then its length, and its command byte has the pipe in its field. -/
theorem writeAckPayloadTransaction : Obligations.WriteAckPayloadTransaction := by
  refine ⟨fun w => (reqOp_eq_iff w 0x8).1, fun pipe n s hs => ?_⟩
  have hcmd : compose s.cfg.opc .wAckPayload pipe = opcOf s.cfg.opc .wAckPayload ||| pipe &&& 0x07 :=
    compose_pipe s.cfg.opc pipe rfl
  rw [← hcmd]
  obtain ⟨hperforms, hoperand, hlength⟩ := transaction_of_operand_and_length (exec_wAckPayload pipe n s) hs
  exact ⟨fun hp => hperforms ((checkPipe_eq_none s.cfg pipe).2 hp), fun hp => hoperand _ (checkPipe_eq_operandRange hp),
    fun hp => hlength ((checkPipe_eq_none s.cfg pipe).2 hp)⟩

end Sys2Proof.Proofs.Requests
end

section
/-! PROOFS, family other: what every step does. The request held on the port (10_state.md R36, R45), ACCEPT where it cannot
take place, reset (70_reset_and_hazards.md R220, R221), empty latches (10_state.md R27), the traffic (20_memory.md R58) and
the parameters (00_scope.md R7). -/

namespace Sys2Proof.Proofs.Steps

open Sys2Proof Sys2Proof.Machine Sys2Proof.Safety Sys2Proof.Proofs.Transitions Sys2Proof.Proofs.TransactionFramer
  Sys2Proof.Proofs.Exceptions

/-! ### ACCEPT -/

/-- Settles O27: it is the step of IDLE where a request is offered. -/
theorem stepRunsTheOfferedRequest : Obligations.StepRunsTheOfferedRequest := by
  rintro s i hr hc hv rfl
  rw [step_idle hr hc, if_pos hv]

/-- Settles O46, by the three answers of ACCEPT: waiting is none where it can take place. -/
theorem everyRequestHasANextState : Obligations.EveryRequestHasANextState := by
  intro i s
  obtain ⟨hwait, h⟩ | ⟨p, -, -, h⟩ | ⟨c, -, h⟩ := exec_cases i s
  · exact ⟨s, h, fun hs => by simp [hs] at hwait⟩
  · exact ⟨_, h, fun _ => .inl rfl⟩
  · exact ⟨_, h, fun _ => .inr rfl⟩

/-- REQ_READY is high exactly in IDLE. -/
theorem reqReady_iff (s : State) : s.reqReady = true ↔ s.ctrl = .idle := by simp [State.reqReady]

/-- ACCEPT cannot take place outside IDLE, or while RST is high. -/
theorem acceptReady_of_busy {s : State} (h : s.ctrl ≠ .idle ∨ s.port.rst = true) : s.acceptReady = false := by
  rw [Bool.eq_false_iff]
  intro hs
  obtain ⟨hr, hc⟩ := s.acceptReady_iff.1 hs
  simp [hr, hc] at h

/-! ### The input signals after a step -/

/-- HANDOFF, COMPLETE and DELIVER leave the environment, so the signals after a step outside IDLE are those the environment
drives, with the request of this step held. -/
theorem step_busy_port {s t : State} (h : step s = .next t) (hr : s.port.rst = false) (hc : s.ctrl ≠ .idle) :
    t.port = holdRequest s.port s.nextDrive false := by
  obtain ⟨hr', -⟩ | ⟨-, hstep⟩ := step_cases h
  · simp [hr] at hr'
  obtain ⟨hidle, -⟩ | ⟨-, -, u, hu, rfl⟩ | ⟨-, -, u, hu, rfl⟩ | ⟨-, -, u, hu, rfl⟩ | ⟨-, rfl⟩ := hstep
  · exact absurd hidle hc
  · obtain ⟨n, frame, -, -, -, rfl⟩ := handoff_next hu
    rfl
  · obtain ⟨xrx, n, ie, -, -, -, -, rfl⟩ | ⟨code, -, rfl⟩ := complete_next hu <;> rfl
  · obtain ⟨r, -, rfl⟩ := deliver_next hu
    rfl
  · rfl

/-- An offered request that does not pass is held, unless RST comes. -/
theorem holdRequest_holds {now next : Config.Inputs} (hv : now.reqValid = true) (hr : now.rst = false)
    (hr' : next.rst = false) :
    holdRequest now next false = { next with reqValid := true, req := now.req, outData := now.outData } := by
  simp [holdRequest, hv, hr, hr']

/-- A step outside IDLE keeps the offered request on the port. -/
theorem step_busy_holds_request {s t : State} (h : step s = .next t) (hr : s.port.rst = false) (hc : s.ctrl ≠ .idle)
    (hv : s.port.reqValid = true) (hr' : t.port.rst = false) :
    t.port.reqValid = true ∧ t.port.req = s.port.req ∧ t.port.outData = s.port.outData := by
  have hport := step_busy_port h hr hc
  have hnext : s.nextDrive.rst = false := by rw [← hr', hport, (holdRequest_others _ _ _).1]
  rw [hport, holdRequest_holds hv hr hnext]
  exact ⟨rfl, rfl, rfl⟩

/-- Settles O26: the port is what the environment holds, and ACCEPT that cannot take place waits. -/
theorem busyRequestsWait : Obligations.BusyRequestsWait :=
  ⟨reqReady_iff, fun _ _ h hr hc hv hr' => step_busy_holds_request h hr hc hv hr',
    fun i _ hc => Requests.exec_waits i (acceptReady_of_busy (.inl hc)),
    fun i _ hr => Requests.exec_waits i (acceptReady_of_busy (.inr hr))⟩

/-- The scenario's next entry is what the environment drives next. -/
theorem nextDrive_of_env {s : State} {d : Config.Inputs} {rest : List Config.Inputs} (h : s.env = d :: rest) :
    s.nextDrive = d := by
  simp [State.nextDrive, h]

/-- Settles O38: outside IDLE the request is held, and one that passes in IDLE leaves the port to the scenario. -/
theorem offeredRequestIsHeld : Obligations.OfferedRequestIsHeld := by
  refine fun s t h hr hv => ⟨fun hc hr' => step_busy_holds_request h hr hc hv hr', fun hc d rest henv => ?_⟩
  rw [step_idle hr hc, if_pos hv] at h
  obtain ⟨u, hu, h⟩ := onNext_eq_next h
  obtain ⟨-, henv', -⟩ := exec_environment hu
  cases h
  rw [State.advance_port, holdRequest_accepted, nextDrive_of_env (henv'.trans henv)]

/-! ### The requester's signals after ACCEPT (R45) -/

/-- COMPLETE looks at no input signal but the result it is given. -/
theorem complete_port (r : SilResult) (s : State) (p : Config.Inputs) :
    complete r { s with port := p } = onNext (complete r s) fun t => .next { t with port := p } := by
  cases r with
  | ok xrx => exact completeOk_port xrx s p
  | err code => rfl

/-- A transition that looks at no input signal, taken or waited for under two settings of the port, leaves the same
registers and the same observation. -/
theorem same_after_transition {s t t' : State} {o : Result} {v : Bool} {p : Config.Inputs}
    (h : (if v then onNext o fun u => .next (u.advance false) else .next (s.advance false)) = .next t)
    (h' : (if v then onNext (onNext o fun u => .next { u with port := p }) fun u => .next (u.advance false)
      else .next ({ s with port := p }.advance false)) = .next t') :
    SameRegisters t t' ∧ SameObservation t t' := by
  cases v with
  | false =>
    cases h
    cases h'
    exact ⟨⟨rfl, rfl, rfl, rfl, rfl, rfl, rfl, rfl⟩, rfl, rfl⟩
  | true =>
    obtain ⟨u, rfl, h⟩ := onNext_eq_next h
    cases h
    cases h'
    exact ⟨⟨rfl, rfl, rfl, rfl, rfl, rfl, rfl, rfl⟩, rfl, rfl⟩

/-- Settles O40: RESET and the transitions after ACCEPT look at no signal of the requester but RSP_READY. -/
theorem requestIsSampledOnce : Obligations.RequestIsSampledOnce := by
  intro s t t' w lanes v hidle h h'
  let p : Config.Inputs := { s.port with reqValid := v, req := w, outData := lanes }
  change step { s with port := p } = .next t' at h'
  rcases hr : s.port.rst with _ | _
  · rcases hc : s.ctrl with _ | _ | _ | _
    · exact absurd hc hidle
    · rw [step_issue hr hc] at h
      rw [step_issue (s := { s with port := p }) hr hc, handoff_port] at h'
      exact same_after_transition h h'
    · rw [step_wait hr hc] at h
      rw [step_wait (s := { s with port := p }) hr hc, complete_port] at h'
      exact same_after_transition h h'
    · rw [step_resp hr hc] at h
      rw [step_resp (s := { s with port := p }) hr hc, deliver_port] at h'
      exact same_after_transition h h'
  · cases h.symm.trans (step_reset hr)
    cases h'.symm.trans (step_reset (s := { s with port := p }) hr)
    exact ⟨⟨rfl, rfl, rfl, rfl, rfl, rfl, rfl, rfl⟩, rfl, rfl⟩

/-! ### Reset (R220, R221) -/

/-- On a step of RST the offered request need not be held. -/
theorem holdRequest_reset {now : Config.Inputs} (next : Config.Inputs) (b : Bool) (h : now.rst = true) :
    holdRequest now next b = next := by
  simp [holdRequest, h]

theorem latchesEmpty_toIdle (s : State) : LatchesEmpty s.toIdle := ⟨rfl, rfl, rfl, rfl, rfl, rfl⟩

/-- Settles O32: RESET is the step, whatever the other signals, and the environment moves on. -/
theorem resetTakesPrecedence : Obligations.ResetTakesPrecedence := by
  intro s hr
  refine ⟨_, step_reset hr, rfl, latchesEmpty_toIdle s, ⟨rfl, rfl⟩, rfl, rfl, rfl, fun d rest henv => ?_⟩
  rw [State.advance_port, State.toIdle_port, holdRequest_reset _ _ hr, State.toIdle_nextDrive, nextDrive_of_env henv]

/-- Settles O33: the reset state is its own `toIdle`, and its outputs are those of empty latches. -/
theorem resetStateHoldsNoValues : Obligations.ResetStateHoldsNoValues :=
  ⟨rfl, rfl, latchesEmpty_toIdle State.reset, rfl, rfl, rfl⟩

/-! ### Empty latches (R27) -/

/-- Positions 0..n cannot be read where one of them holds no value. -/
theorem readBytes_eq_none {buf : Vector (Option Byte) (Config.lanes + 1)} {n i : Nat} (hn : n ≤ Config.lanes) (hi : i ≤ n)
    (h : buf[i]? = some none) : readBytes buf n = none := by
  rw [Option.eq_none_iff_forall_not_mem]
  intro bs hbs
  obtain ⟨hlength, hbytes⟩ := (readBytes_eq_some buf n hn bs).1 hbs
  have hbyte := hbytes i (by omega) hi
  rw [Vector.getElem?_eq_getElem (by omega), Option.some_inj] at h
  rw [h, List.getElem?_eq_getElem (by omega)] at hbyte
  cases hbyte

/-- Settles O34: each transition reads its latches in order, and the first without a value faults under its name. -/
theorem readingAnEmptyLatchFaults : Obligations.ReadingAnEmptyLatchFaults := by
  refine fun s hr => ⟨fun hc hv hl => ?_, fun n i hc hv hl hn hi hbyte => ?_, fun hc hv herr hl => ?_,
    fun n hc hv herr hl hn hie => ?_, fun hc hv hrsp => ?_⟩
  · rw [step_issue hr hc, if_pos hv, handoff, hl, withValue_none, onNext_fault]
  · rw [step_issue hr hc, if_pos hv, handoff, hl, withValue_some, if_neg (Nat.not_lt_of_le hn),
      readBytes_eq_none (len_le_lanes n) hi hbyte, withValue_none, onNext_fault]
  · rw [step_wait hr hc, if_pos hv, silResult_ok herr, complete, completeOk, hl, withValue_none, onNext_fault]
  · rw [step_wait hr hc, if_pos hv, silResult_ok herr, complete, completeOk, hl, withValue_some,
      if_neg (Nat.not_lt_of_le hn), hie, withValue_none, onNext_fault]
  · rw [step_resp hr hc, if_pos hv, deliver, hrsp, withValue_none, onNext_fault]

/-! ### The observation and the parameters -/

/-- Settles O36, by the transition: HANDOFF appends the frame it reads, DELIVER the response it drives, and no other one
observes anything. -/
theorem trafficGrowsByWholeRecords : Obligations.TrafficGrowsByWholeRecords := by
  intro s t h
  obtain ⟨hr, rfl⟩ | ⟨hr, hstep⟩ := step_cases h
  · exact ⟨.inl ⟨rfl, by simp⟩, .inl ⟨rfl, by simp [hr]⟩⟩
  obtain ⟨hc, -, u, hu, rfl⟩ | ⟨hc, -, u, hu, rfl⟩ | ⟨hc, -, u, hu, rfl⟩ | ⟨hc, -, u, hu, rfl⟩ | ⟨-, rfl⟩ := hstep
  · obtain ⟨-, -, -, hsent, htaken⟩ := exec_environment hu
    exact ⟨.inl ⟨hsent, by simp [hc]⟩, .inl ⟨htaken, by simp [hc]⟩⟩
  · obtain ⟨n, frame, hl, -, hread, rfl⟩ := handoff_next hu
    have hxtx : s.xtx = some frame := by simp only [State.xtx, hl, hread]
    exact ⟨.inr ⟨hc, rfl, hr, frame, hxtx, rfl⟩, .inl ⟨rfl, by simp [hc]⟩⟩
  · obtain ⟨xrx, n, ie, -, -, -, -, rfl⟩ | ⟨code, -, rfl⟩ := complete_next hu <;>
      exact ⟨.inl ⟨rfl, by simp [hc]⟩, .inl ⟨rfl, by simp [hc]⟩⟩
  · obtain ⟨r, hrsp, rfl⟩ := deliver_next hu
    have hresponse : s.response = some (responseOf r) := by rw [State.response, hrsp, Option.map_some]
    exact ⟨.inl ⟨rfl, by simp [hc]⟩, .inr ⟨hc, rfl, hr, _, hresponse, rfl⟩⟩
  · refine ⟨.inl ⟨rfl, ?_⟩, .inl ⟨rfl, ?_⟩⟩ <;> rintro ⟨hc, ht⟩ <;> simp [hc] at ht

/-- Settles O48, by the transition: each writes registers of the CPED only. -/
theorem noStepChangesTheParameters : Obligations.NoStepChangesTheParameters := by
  refine ⟨fun s t h => ?_, fun i s t h => exec_cfg h⟩
  obtain ⟨-, rfl⟩ | ⟨-, hstep⟩ := step_cases h
  · rfl
  obtain ⟨-, -, u, hu, rfl⟩ | ⟨-, -, u, hu, rfl⟩ | ⟨-, -, u, hu, rfl⟩ | ⟨-, -, u, hu, rfl⟩ | ⟨-, rfl⟩ := hstep
  · exact (u.advance_cfg true).trans (exec_cfg hu)
  · obtain ⟨n, frame, -, -, -, rfl⟩ := handoff_next hu
    rfl
  · obtain ⟨xrx, n, ie, -, -, -, -, rfl⟩ | ⟨code, -, rfl⟩ := complete_next hu <;> rfl
  · obtain ⟨r, -, rfl⟩ := deliver_next hu
    rfl
  · rfl

end Sys2Proof.Proofs.Steps
end

section
/-! PROOFS, family other: the requests that calls and their texts spell (30_encoding.md R89) and the response words
of the failures (R80). -/

namespace Sys2Proof.Proofs.Calls

open Sys2Proof Sys2Proof.Machine Sys2Proof.Safety Sys2Proof.Proofs.Encoding

/-! ### The request a call spells -/

/-- The listed bytes stand on the first lanes of OUT_DATA. -/
theorem lanesOf_take {data : List Byte} (h : data.length ≤ Config.lanes) :
    (lanesOf data).toList.take data.length = data := by
  apply List.ext_getElem?
  intro i
  by_cases hi : i < data.length
  · simp [lanesOf, hi, show i < Config.lanes by omega]
  · simp [hi]

/-- A word built from its fields spells them, with bytes that fit the lanes. -/
theorem spells_buildReq (op : BitVec 4) (operand : Byte) {n : Nat} (outEn inEn : Bool) {data : List Byte} (hn : n < 64)
    (hdata : data.length ≤ Config.lanes) :
    Spells ⟨buildReq op operand (BitVec.ofNat 6 n) outEn inEn, lanesOf data⟩ op operand n outEn inEn data := by
  have hlen : (BitVec.ofNat 6 n).toNat = n := by rw [BitVec.toNat_ofNat, Nat.mod_eq_of_lt hn]
  exact ⟨Laws.EncodedOp.reqOp_buildReq .., reqOperand_buildReq .., by rw [reqLen_buildReq, hlen], reqOutEn_buildReq ..,
    reqInEn_buildReq .., reserved_buildReq .., lanesOf_take hdata⟩

/-- A call with a count LEN can hold, and without a list of bytes, spells its fields. -/
theorem assemble_spells {c : Call} {op : BitVec 4} {operand : Byte} {outEn inEn : Bool} (hn : callCount c < 64)
    (hdata : callData c = none)
    (hword : encode (callInstr c) = buildReq op operand (BitVec.ofNat 6 (callCount c)) outEn inEn) :
    ∃ q, assemble c = some q ∧ Spells q op operand (callCount c) outEn inEn [] := by
  refine ⟨_, ?_, spells_buildReq op operand outEn inEn hn (Nat.zero_le _)⟩
  simp [assemble, hn, hdata, hword]

/-- A call that lists as many bytes as it counts spells its fields and the bytes. -/
theorem assemble_spells_list {c : Call} {op : BitVec 4} {operand : Byte} {outEn inEn : Bool} {data : List Byte}
    (hn : callCount c < 64) (hdata : callData c = some data) (hcount : data.length = callCount c)
    (hword : encode (callInstr c) = buildReq op operand (BitVec.ofNat 6 (callCount c)) outEn inEn) :
    ∃ q, assemble c = some q ∧ Spells q op operand (callCount c) outEn inEn data := by
  have hlanes : data.length ≤ Config.lanes := hcount ▸ Nat.le_of_lt_succ hn
  refine ⟨_, ?_, spells_buildReq op operand outEn inEn hn hlanes⟩
  simp [assemble, hn, hdata, hcount, hword]

/-- A call that lists another number of bytes than it counts spells no request. -/
theorem assemble_eq_none {c : Call} {data : List Byte} (hdata : callData c = some data)
    (hcount : data.length ≠ callCount c) : assemble c = none := by
  simp [assemble, hdata, hcount]

/-- Settles O49: the word of each form is built from the fields of its row, so one of the three lemmas above applies. -/
theorem callsSpellTheirRequests : Obligations.CallsSpellTheirRequests := by
  refine ⟨fun addr n hn => ?_, fun addr data n hn hd => ?_, fun n hn => ?_, fun data n hn hd => ?_, ?_, ?_, ?_, ?_,
    fun pipe data n hn hd => ?_, fun data n hn hd => ?_, ?_, fun cmd inbound n hn => ?_,
    fun cmd data inbound n hn hd => ?_, fun data n hd => ⟨fun addr => ?_, ?_, fun pipe => ?_, ?_, fun cmd inbound => ?_⟩⟩
  · exact assemble_spells (c := .rRegister addr n) hn rfl rfl
  · exact assemble_spells_list (c := .wRegister addr data n) hn rfl hd rfl
  · exact assemble_spells (c := .rRxPayload n) hn rfl rfl
  · exact assemble_spells_list (c := .wTxPayload data n) hn rfl hd rfl
  · exact assemble_spells (c := .flushTx) (by decide) rfl rfl
  · exact assemble_spells (c := .flushRx) (by decide) rfl rfl
  · exact assemble_spells (c := .reuseTxPl) (by decide) rfl rfl
  · exact assemble_spells (c := .rRxPlWid) (by decide) rfl rfl
  · exact assemble_spells_list (c := .wAckPayload pipe data n) hn rfl hd rfl
  · exact assemble_spells_list (c := .wTxPayloadNoack data n) hn rfl hd rfl
  · exact assemble_spells (c := .nop) (by decide) rfl rfl
  · exact assemble_spells (c := .transceive cmd none inbound n) hn rfl rfl
  · exact assemble_spells_list (c := .transceive cmd (some data) inbound n) hn rfl hd rfl
  · exact assemble_eq_none (c := .wRegister addr data n) rfl hd
  · exact assemble_eq_none (c := .wTxPayload data n) rfl hd
  · exact assemble_eq_none (c := .wAckPayload pipe data n) rfl hd
  · exact assemble_eq_none (c := .wTxPayloadNoack data n) rfl hd
  · exact assemble_eq_none (c := .transceive cmd (some data) inbound n) rfl hd

/-- Settles O50: each text is closed, so the reader runs on it. -/
theorem requestTextsAreRead : Obligations.RequestTextsAreRead :=
  ⟨rfl, rfl, rfl, rfl, rfl, rfl, rfl, rfl, rfl, rfl, rfl, rfl, rfl, rfl, rfl, rfl⟩

/-! ### The response words of the failures (R80, R194) -/

/-- The response word of BUS_ERR has KIND 0b01 and 0 in every other field: the code is not a part of it. -/
theorem rspWord_busErrLatch (code : BitVec Config.errWidth) : rspWord (busErrLatch code) = 0x00000100 :=
  calc rspWord (busErrLatch code)
    _ = 0#13 ++ 0#6 ++ 0#1 ++ 0b00#2 ++ 0b01#2 ++ 0#8 := rfl
    _ = 0x00000100 := by decide

/-- Settles O43: the words of the three causes are closed, and BUS_ERR hands its code on beside its word. -/
theorem failureResponseWords : Obligations.FailureResponseWords :=
  ⟨rfl, rfl, rfl, fun code => ⟨rspWord_busErrLatch code, rfl⟩⟩

end Sys2Proof.Proofs.Calls
end

section
/-! PROOFS, family other: a served program runs as its transactions one after the other (41_transaction_framer.md R141,
20_memory.md R64). A transaction is four phases: in each the CPED waits for one signal and then takes one transition, so one
lemma says what a phase of waiting is and one lemma per transition what it leaves; the program is an induction over its
requests. -/

namespace Sys2Proof.Proofs.Programs

open Sys2Proof Sys2Proof.Machine Sys2Proof.Safety Sys2Proof.Proofs.Encoding Sys2Proof.Proofs.TransactionFramer
  Sys2Proof.Proofs.Exceptions Sys2Proof.Proofs.Requests Sys2Proof.Proofs.Steps

/-! ### A state and the scenario before it -/

/-- The state with this scenario before it: its first entry is the input signals of the present step. -/
def facing (s : State) : List Config.Inputs → State
  | [] => s
  | e :: es => { s with port := e, env := es }

/-- The run over the entries `es` ends in `t`. -/
def RunsOver (es : List Config.Inputs) (s t : State) : Prop := Host.Core.run core es.length s = .next t

/-- The requester keeps its request through the entries `es` and into the first one after them. -/
def Held (es tail : List Config.Inputs) : Prop := (es ++ tail.take 1).IsChain KeepsRequest

theorem facing_self (s : State) : facing s (s.port :: s.env) = s := rfl

theorem RunsOver.append {es es' : List Config.Inputs} {s t u : State} (h : RunsOver es s t) (h' : RunsOver es' t u) :
    RunsOver (es ++ es') s u := by
  rw [RunsOver, List.length_append, run_add _ h]
  exact h'

theorem RunsOver.cons {e : Config.Inputs} {es : List Config.Inputs} {s t u : State} (h : step s = .next t)
    (h' : RunsOver es t u) : RunsOver (e :: es) s u := (run_step h).trans h'

theorem held_append {es es' tail : List Config.Inputs} (h : Held (es ++ es') tail) :
    Held es (es' ++ tail) ∧ Held es' tail := by
  rw [Held, List.append_assoc] at h
  refine ⟨?_, (List.isChain_append.1 h).2.1⟩
  cases es' with
  | nil => exact h
  | cons e es' => exact (List.isChain_split.1 h).1

/-- A phase is held where the whole busy part is: in its waiting, at its transition, and after it. -/
theorem held_phase {w es tail : List Config.Inputs} {e : Config.Inputs} (h : Held (w ++ e :: es) tail) :
    Held w (e :: es ++ tail) ∧ Held [e] (es ++ tail) ∧ Held es tail :=
  ⟨(held_append h).1, held_append (es := [e]) (held_append h).2⟩

/-- Where no request is offered there is none to keep. -/
theorem held_of_waits {w : List Config.Inputs} (tail : List Config.Inputs) (hw : Waits (·.reqValid) w) : Held w tail := by
  induction w with
  | nil => cases tail <;> simp [Held]
  | cons e w ih =>
    refine List.isChain_cons.2 ⟨fun _ _ hv => ?_, ih fun a ha => hw a (List.mem_cons_of_mem e ha)⟩
    simp [(hw e List.mem_cons_self).2] at hv

/-- A request kept by the scenario needs no holding. -/
theorem holdRequest_of_keeps {now next : Config.Inputs} (b : Bool) (h : KeepsRequest now next) :
    holdRequest now next b = next := by
  rw [holdRequest]
  split_ifs with hv
  · simp only [Bool.and_eq_true] at hv
    obtain ⟨hvalid, hreq, hdata⟩ := h hv.1.1.1
    rw [← hvalid, ← hreq, ← hdata]
  · rfl

/-- The input signals move on along the scenario, where the request has passed or is kept by it. -/
theorem advance_facing (s : State) {e : Config.Inputs} {tail : List Config.Inputs} {b : Bool} (hne : tail ≠ [])
    (hheld : b = true ∨ Held [e] tail) : (facing s (e :: tail)).advance b = facing s tail := by
  obtain ⟨d, rest, rfl⟩ := List.exists_cons_of_ne_nil hne
  have hport : holdRequest e d b = d := by
    obtain rfl | hheld := hheld
    · exact holdRequest_accepted _ _
    · exact holdRequest_of_keeps b (List.isChain_pair.1 hheld)
  rw [State.advance, nextDrive_of_env (s := facing s (e :: d :: rest)) rfl]
  simp only [facing, hport]
  rfl

/-! ### A phase of a transaction: waiting, then a transition -/

section Phase
variable {awaited : Config.Inputs → Bool} {ctrl : Ctrl} {s : State}
  (hstay : ∀ u : State, u.port.rst = false → u.ctrl = ctrl → awaited u.port = false → step u = .next (u.advance false))
  (hc : s.ctrl = ctrl)
include hstay hc

/-- While the awaited signal is low the CPED stays as it is, and the scenario goes by. -/
theorem runsOver_waits {w tail : List Config.Inputs} (hw : Waits awaited w) (hne : tail ≠ []) (hheld : Held w tail) :
    RunsOver w (facing s (w ++ tail)) (facing s tail) := by
  induction w with
  | nil => rfl
  | cons e w ih =>
    obtain ⟨hr, hv⟩ := hw e List.mem_cons_self
    obtain ⟨hfirst, hrest⟩ := held_append (es := [e]) hheld
    have hne' : w ++ tail ≠ [] := List.append_ne_nil_of_right_ne_nil w hne
    have hstep : step (facing s (e :: (w ++ tail))) = .next (facing s (w ++ tail)) := by
      rw [hstay (facing s (e :: (w ++ tail))) hr hc hv, advance_facing s hne' (.inr hfirst)]
    exact .cons hstep (ih (fun a ha => hw a (List.mem_cons_of_mem e ha)) hrest)

/-- After the waiting, the transition of the entry `e`; then the rest of the run. -/
theorem RunsOver.phase {w es tail : List Config.Inputs} {e : Config.Inputs} {u v : State} (hw : Waits awaited w)
    (hheld : Held w (e :: es ++ tail)) (hstep : step (facing s (e :: (es ++ tail))) = .next (facing u (es ++ tail)))
    (hrest : RunsOver es (facing u (es ++ tail)) v) : RunsOver (w ++ e :: es) (facing s (w ++ e :: es ++ tail)) v := by
  rw [List.append_assoc]
  exact (runsOver_waits hstay hc hw (List.cons_ne_nil e _) hheld).append (.cons hstep hrest)

end Phase

/-- In IDLE with REQ_VALID low the CPED waits. -/
theorem step_idle_waits (u : State) (hr : u.port.rst = false) (hc : u.ctrl = .idle) (hv : u.port.reqValid = false) :
    step u = .next (u.advance false) := by
  simp [step_idle hr hc, hv]

/-- In RESP with RSP_READY low the CPED waits. -/
theorem step_resp_waits (u : State) (hr : u.port.rst = false) (hc : u.ctrl = .resp) (hv : u.port.rspReady = false) :
    step u = .next (u.advance false) := by
  simp [step_resp hr hc, hv]

/-! ### The transitions along a scenario -/

/-- The state after ACCEPT of a request that passes Check: its frame is built from its own lanes. -/
def issued (q : Request) (s : State) : State :=
  { s with port := { s.port with outData := q.outData } }.buildFrame (paramsReq s.cfg.opc q.req)

/-- The state after HANDOFF of a frame. -/
def handedOver (frame : List Byte) (s : State) : State := { s with sent := s.sent ++ [frame], ctrl := .wait }

/-- The state after COMPLETE of a frame of length `n`. -/
def completed (r : SilResult) (n : Len) (ie : Bool) (s : State) : State :=
  match r with
  | .ok xrx =>
    { s with
      rxbuf := loadRx s.rxbuf xrx n
      rsp := some (okLatch xrx[0] ((xrx.toList.take (n.toNat + 1)).tail) n ie)
      ctrl := .resp }
  | .err code => s.busError code

/-- The state after DELIVER of a response. -/
def delivered (r : ResponseLatch) (s : State) : State := { s.toIdle with taken := s.taken ++ [responseOf r] }

/-- The state after transactions in which the SIL took these frames and the requester these responses. -/
def observing (frames : List (List Byte)) (responses : List Response) (s : State) : State :=
  { s.toIdle with sent := s.sent ++ frames, taken := s.taken ++ responses }

section Transitions
variable {s : State} {e : Config.Inputs} {tail : List Config.Inputs} (hne : tail ≠ [])
include hne

/-- ACCEPT of a request that passes Check, or fails it, along the scenario. -/
theorem step_accept_pass {q : Request} (hc : s.ctrl = .idle) (ho : Offers q e) (hcheck : checkReq s.cfg q.req = none) :
    step (facing s (e :: tail)) = .next (facing (issued q s) tail) := by
  obtain ⟨hr, hv, hreq, hdata⟩ := ho
  have hs : (facing s (e :: tail)).acceptReady = true := (State.acceptReady_iff _).2 ⟨hr, hc⟩
  have hissued : (facing s (e :: tail)).buildFrame (paramsReq s.cfg.opc e.req) = facing (issued q s) (e :: tail) := by
    simp only [facing, issued, State.buildFrame, hreq, hdata]
  rw [step_offered_pass hs hv (hreq ▸ hcheck : checkReq s.cfg e.req = none), ← advance_facing _ hne (.inl rfl),
    ← hissued]
  rfl

theorem step_accept_fail {q : Request} {c : Cause} (hc : s.ctrl = .idle) (ho : Offers q e)
    (hcheck : checkReq s.cfg q.req = some c) :
    step (facing s (e :: tail)) = .next (facing (s.precondFail c) tail) := by
  obtain ⟨hr, hv, hreq, -⟩ := ho
  have hs : (facing s (e :: tail)).acceptReady = true := (State.acceptReady_iff _).2 ⟨hr, hc⟩
  rw [step_offered_fail hs hv (hreq ▸ hcheck : checkReq s.cfg e.req = some c), ← advance_facing _ hne (.inl rfl)]
  rfl

variable (hheld : Held [e] tail)
include hheld

/-- HANDOFF along the scenario. -/
theorem step_take {n : Len} {frame : List Byte} (hc : s.ctrl = .issue) (ht : Raises (·.xreqReady) e)
    (hl : s.len = some n) (hn : n.toNat ≤ s.cfg.nMax) (hread : readBytes s.txbuf n.toNat = some frame) :
    step (facing s (e :: tail)) = .next (facing (handedOver frame s) tail) := by
  obtain ⟨hr, hv⟩ := ht
  rw [← advance_facing _ hne (.inr hheld)]
  exact step_handoff hr hc hv (handoff_of_frame (s := facing s (e :: tail)) hl hn hread)

/-- COMPLETE along the scenario. -/
theorem step_result {r : SilResult} {n : Len} {ie : Bool} (hc : s.ctrl = .wait) (ht : Raises (·.xrspValid) e)
    (hresult : silResult e = r) (hl : s.len = some n) (hn : n.toNat ≤ s.cfg.nMax) (hi : s.inEn = some ie) :
    step (facing s (e :: tail)) = .next (facing (completed r n ie s) tail) := by
  obtain ⟨hr, hv⟩ := ht
  have hcomplete : complete (silResult e) (facing s (e :: tail)) = .next (facing (completed r n ie s) (e :: tail)) := by
    rw [hresult]
    cases r with
    | ok xrx => exact completeOk_of_frame (s := facing s (e :: tail)) xrx hl hn hi
    | err code => rfl
  rw [← advance_facing _ hne (.inr hheld)]
  exact step_complete hr hc hv hcomplete

/-- DELIVER along the scenario. -/
theorem step_answer {r : ResponseLatch} (hc : s.ctrl = .resp) (ht : Raises (·.rspReady) e) (hrsp : s.rsp = some r) :
    step (facing s (e :: tail)) = .next (facing (delivered r s) tail) := by
  obtain ⟨hr, hv⟩ := ht
  rw [← advance_facing _ hne (.inr hheld)]
  exact step_deliver hr hc hv (deliver_of_response (s := facing s (e :: tail)) hrsp)

end Transitions

/-! ### The transaction as one function (R132, R141) -/

/-- The frame a request asks for. -/
def requestFrame (c : Config.Params) (q : Request) : List Byte :=
  let p := paramsReq c.opc q.req
  frameOf p.cmd (if p.oe then some q.outData.toList else none) p.n.toNat

theorem exchangeOf_pass {c : Config.Params} {q : Request} (h : checkReq c q.req = none) :
    exchangeOf c q = some (requestFrame c q) := by
  rw [exchangeOf, h]
  rfl

theorem exchangeOf_fail {c : Config.Params} {q : Request} {cause : Cause} (h : checkReq c q.req = some cause) :
    exchangeOf c q = none := by
  rw [exchangeOf, h]

/-- A frame is the command byte and N bytes. -/
theorem length_requestFrame (c : Config.Params) (q : Request) :
    (requestFrame c q).length = (paramsReq c.opc q.req).n.toNat + 1 := by
  have hn : (paramsReq c.opc q.req).n.toNat ≤ 63 := len_le_lanes _
  rw [requestFrame]
  split_ifs <;> simp [frameOf, hn]

/-- What HANDOFF reads of an issued request is its frame. -/
theorem readBytes_issued (q : Request) (s : State) :
    readBytes (issued q s).txbuf (paramsReq s.cfg.opc q.req).n.toNat = some (requestFrame s.cfg q) := by
  have hxtx := xtx_buildFrame (paramsReq s.cfg.opc q.req) { s with port := { s.port with outData := q.outData } }
  refine hxtx.trans ?_
  rw [requestFrame]
  split_ifs <;> rfl

/-- The response of a completed exchange is what COMPLETE latches: the two differ only in how they list the lanes. -/
theorem transact_ok {c : Config.Params} {q : Request} (xrx : Vector Byte (Config.lanes + 1))
    (h : checkReq c q.req = none) :
    transact c q (.ok xrx) =
      okLatch xrx[0] ((xrx.toList.take ((paramsReq c.opc q.req).n.toNat + 1)).tail) (paramsReq c.opc q.req).n
        (paramsReq c.opc q.req).ie := by
  have hlanes : (transact c q (.ok xrx)).inBytes =
      (okLatch xrx[0] ((xrx.toList.take ((paramsReq c.opc q.req).n.toNat + 1)).tail) (paramsReq c.opc q.req).n
        (paramsReq c.opc q.req).ie).inBytes := by
    apply Vector.ext
    intro i hi
    rw [getElem_okLatch_inBytes]
    simp [transact, h]
  calc transact c q (.ok xrx)
    _ = { okLatch xrx[0] ((xrx.toList.take ((paramsReq c.opc q.req).n.toNat + 1)).tail) (paramsReq c.opc q.req).n
            (paramsReq c.opc q.req).ie with inBytes := (transact c q (.ok xrx)).inBytes } := by rw [transact, h]; rfl
    _ = _ := by rw [hlanes]

theorem transact_err {c : Config.Params} {q : Request} (code : BitVec Config.errWidth) (h : checkReq c q.req = none) :
    transact c q (.err code) = busErrLatch code := by
  rw [transact, h]
  rfl

theorem transact_fail {c : Config.Params} {q : Request} {cause : Cause} (r : SilResult)
    (h : checkReq c q.req = some cause) : transact c q r = precondLatch cause := by
  rw [transact, h]
  rfl

/-- What COMPLETE latches for an issued request is the response of its transaction. -/
theorem completed_rsp {c : Config.Params} {q : Request} (r : SilResult) (s : State) (h : checkReq c q.req = none) :
    (completed r (paramsReq c.opc q.req).n (paramsReq c.opc q.req).ie s).rsp = some (transact c q r) := by
  cases r with
  | ok xrx => rw [transact_ok xrx h]; rfl
  | err code => rw [transact_err code h]; rfl

/-! ### One served request, and a program of them -/

theorem completed_ctrl (r : SilResult) (n : Len) (ie : Bool) (s : State) : (completed r n ie s).ctrl = .resp := by
  cases r <;> rfl

/-- DELIVER leaves nothing of an exchange but what was observed of it. -/
theorem facing_delivered_completed (q : Request) (r : SilResult) (n : Len) (ie : Bool) (frame : List Byte)
    (l : ResponseLatch) (s : State) {tail : List Config.Inputs} (hne : tail ≠ []) :
    facing (delivered l (completed r n ie (handedOver frame (issued q s)))) tail =
      facing (observing [frame] [responseOf l] s) tail := by
  obtain ⟨d, rest, rfl⟩ := List.exists_cons_of_ne_nil hne
  cases r <;> rfl

/-- DELIVER leaves nothing of a rejected request but its response. -/
theorem delivered_precondFail (c : Cause) (l : ResponseLatch) (s : State) :
    delivered l (s.precondFail c) = observing [] [responseOf l] s := by
  rw [observing, List.append_nil]
  rfl

/-- The request is accepted, waits for the SIL twice and is answered; or it is rejected and answered. -/
theorem runsOver_serves {s : State} {q : Request} {r : SilResult} {lead busy tail : List Config.Inputs}
    (hadm : s.cfg.admissible = true) (hc : s.ctrl = .idle) (hserves : Serves s.cfg q r lead busy) (hne : tail ≠ [])
    (hheld : Held busy tail) :
    RunsOver (lead ++ busy) (facing s (lead ++ busy ++ tail))
      (facing (observing (exchangeOf s.cfg q).toList [responseOf (transact s.cfg q r)] s) tail) := by
  cases hserves with
  | accepted w₀ w₁ w₂ w₃ e₀ e₁ e₂ e₃ pass idle offer busy take pending result answer late deliver =>
    have hs : (facing s [e₀]).acceptReady = true := (State.acceptReady_iff _).2 ⟨offer.1, hc⟩
    have hn : (paramsReq s.cfg.opc q.req).n.toNat ≤ s.cfg.nMax := length_paramsReq_le (s := facing s [e₀]) hadm hs pass
    obtain ⟨hissue, htake, hheld⟩ := held_phase hheld
    obtain ⟨hwait, hresult, hheld⟩ := held_phase hheld
    obtain ⟨hresp, hdeliver, -⟩ := held_phase hheld
    rw [exchangeOf_pass pass, List.append_assoc w₀]
    refine .phase step_idle_waits hc idle (held_of_waits _ idle) (step_accept_pass (by simp) hc offer pass) ?_
    refine .phase step_issue_waits rfl busy hissue (step_take (by simp) htake rfl take rfl hn (readBytes_issued q s)) ?_
    refine .phase step_wait_waits rfl pending hwait (step_result (by simp) hresult rfl result answer rfl hn rfl) ?_
    refine .phase step_resp_waits (completed_ctrl ..) late hresp
      (step_answer hne hdeliver (completed_ctrl ..) deliver (completed_rsp r _ pass)) ?_
    exact congrArg Host.Outcome.next (facing_delivered_completed q r _ _ _ _ s hne)
  | rejected w₀ w₃ e₀ e₃ fail idle offer late deliver =>
    obtain ⟨c, hcheck⟩ := Option.ne_none_iff_exists'.1 fail
    obtain ⟨hresp, hdeliver, -⟩ := held_phase hheld
    rw [exchangeOf_fail hcheck, transact_fail r hcheck, List.append_assoc w₀, Option.toList_none,
      ← delivered_precondFail c]
    refine .phase step_idle_waits hc idle (held_of_waits _ idle) (step_accept_fail (by simp) hc offer hcheck) ?_
    exact .phase step_resp_waits rfl late hresp (step_answer hne hdeliver rfl deliver rfl) rfl

/-- Nothing observed in IDLE with empty latches is no change. -/
theorem observing_nil {s : State} (hc : s.ctrl = .idle) (hempty : LatchesEmpty s) : observing [] [] s = s := by
  obtain ⟨hcmd, hlen, hie, htx, hrx, hrsp⟩ := hempty
  obtain ⟨⟩ := s
  simp_all [observing, State.toIdle]

/-- What was observed adds up. -/
theorem observing_observing (frames frames' : List (List Byte)) (responses responses' : List Response) (s : State) :
    observing frames' responses' (observing frames responses s) =
      observing (frames ++ frames') (responses ++ responses') s := by
  simp only [observing, List.append_assoc]
  rfl

/-- The frames a program makes the SIL take, and the responses it gives the requester. -/
def programFrames (c : Config.Params) (program : List (Request × SilResult)) : List (List Byte) :=
  program.filterMap fun x => exchangeOf c x.1

def programResponses (c : Config.Params) (program : List (Request × SilResult)) : List Response :=
  program.map fun x => responseOf (transact c x.1 x.2)

theorem programFrames_cons (c : Config.Params) (x : Request × SilResult) (program : List (Request × SilResult)) :
    programFrames c (x :: program) = (exchangeOf c x.1).toList ++ programFrames c program := by
  rw [programFrames, List.filterMap_cons]
  cases exchangeOf c x.1 <;> rfl

/-- The requests of a program run one after the other: each begins in the IDLE state the one before it left. -/
theorem runsOver_servesAll {c : Config.Params} {rest es : List Config.Inputs} {program : List (Request × SilResult)}
    (hserves : ServesAll c rest program es) (hadm : c.admissible = true) (hne : rest ≠ []) {s : State} (hcfg : s.cfg = c)
    (hc : s.ctrl = .idle) (hempty : LatchesEmpty s) :
    RunsOver es (facing s (es ++ rest))
      (facing (observing (programFrames c program) (programResponses c program) s) rest) := by
  induction hserves generalizing s with
  | done =>
    have hnothing : observing (programFrames c []) (programResponses c []) s = s := observing_nil hc hempty
    rw [hnothing]
    rfl
  | next q r program lead busy es served stable others ih =>
    subst hcfg
    have hne' : es ++ rest ≠ [] := List.append_ne_nil_of_right_ne_nil es hne
    rw [programFrames_cons, List.append_assoc (lead ++ busy)]
    refine (runsOver_serves hadm hc served hne' stable).append ?_
    have hrun := ih (s := observing (exchangeOf s.cfg q).toList [responseOf (transact s.cfg q r)] s) rfl rfl
      ⟨rfl, rfl, rfl, rfl, rfl, rfl⟩
    rwa [observing_observing] at hrun

/-- A request makes an exchange exactly where it passes Check, of length LEN + 1. -/
theorem exchangeOf_length (c : Config.Params) (q : Request) :
    (exchangeOf c q = none ↔ checkReq c q.req ≠ none) ∧
      ∀ frame, exchangeOf c q = some frame → frame.length = (paramsReq c.opc q.req).n.toNat + 1 := by
  cases h : checkReq c q.req with
  | none =>
    rw [exchangeOf_pass h]
    refine ⟨by simp, ?_⟩
    rintro frame ⟨⟩
    exact length_requestFrame c q
  | some cause =>
    rw [exchangeOf_fail h]
    exact ⟨by simp, nofun⟩

/-- Settles O47: the run of the program, and what the state it ends in holds. -/
theorem programsRunAsSequencesOfTransact : Obligations.ProgramsRunAsSequencesOfTransact := by
  intro program es rest s hadm hserves hscenario hne hc hempty
  have hrun := runsOver_servesAll hserves hadm hne rfl hc hempty
  rw [← hscenario, facing_self] at hrun
  obtain ⟨d, rest, rfl⟩ := List.exists_cons_of_ne_nil hne
  exact ⟨_, hrun, rfl, rfl, rfl, ⟨rfl, rfl, rfl, rfl, rfl, rfl⟩, rfl, fun x _ => exchangeOf_length s.cfg x.1⟩

end Sys2Proof.Proofs.Programs
end
